-- ==== Sys2Proof/Word.lean ====
section
/-! DEFINITION. The bit-vector types of the VMU: `00_scope.md` R2 (operand widths), R3 (values), section 4 (parameters). -/

namespace Sys2Proof

/-- `DATA_W` = 8: a register, a data cell, a code cell, an immediate `i8`, an offset `r8`. -/
abbrev Byte := BitVec 8

/-- `D9_W` = 9: a data address, the operand `d9` (`00_scope.md` R2). -/
abbrev DataAddr := BitVec 9

/-- `PC_W` = 16: a code address, the operands `a16` and `r16` (`10_state.md` R17). -/
abbrev CodeAddr := BitVec 16

/-- The operand `a12`: the low 12 bits of a code address (`00_scope.md` R2). -/
abbrev PageAddr := BitVec 12

/-- The operand `b3`: a bit number 0..7, bit 0 least significant (`30_encoding.md` R53). -/
abbrev BitNum := BitVec 3

/-- The register number `i` of `@Ri`, 0..3 (`00_scope.md` R2). -/
abbrev IndReg := BitVec 2

end Sys2Proof
end

