-- ==== Sys2Proof/Syntax.lean ====
section
/-! DEFINITION. The syntax of the VMU's instructions: one constructor for each of the 70 forms of
`30_encoding.md` R55 (one per row of the opcode table), its operands in the order of the assembly form (R63). -/

namespace Sys2Proof

/-- The 70 instruction forms. The suffixes `Imm`, `Dir` and `Ind` stand for the operand kinds Immediate (`#i8`),
Direct (`d9`) and Indirect (`@Ri`) of `30_encoding.md` R61. -/
inductive Instr
  /-- `add #i8` (R70), format IMM. -/
  | addImm (v : Byte)
  /-- `add d9` (R70), format DIR. -/
  | addDir (d : DataAddr)
  /-- `add @Ri` (R70), format IND. -/
  | addInd (i : IndReg)
  /-- `addc #i8` (R71), format IMM. -/
  | addcImm (v : Byte)
  /-- `addc d9` (R71), format DIR. -/
  | addcDir (d : DataAddr)
  /-- `addc @Ri` (R71), format IND. -/
  | addcInd (i : IndReg)
  /-- `sub #i8` (R72), format IMM. -/
  | subImm (v : Byte)
  /-- `sub d9` (R72), format DIR. -/
  | subDir (d : DataAddr)
  /-- `sub @Ri` (R72), format IND. -/
  | subInd (i : IndReg)
  /-- `subc #i8` (R73), format IMM. -/
  | subcImm (v : Byte)
  /-- `subc d9` (R73), format DIR. -/
  | subcDir (d : DataAddr)
  /-- `subc @Ri` (R73), format IND. -/
  | subcInd (i : IndReg)
  /-- `inc d9` (R74), format DIR. -/
  | incDir (d : DataAddr)
  /-- `inc @Ri` (R74), format IND. -/
  | incInd (i : IndReg)
  /-- `dec d9` (R75), format DIR. -/
  | decDir (d : DataAddr)
  /-- `dec @Ri` (R75), format IND. -/
  | decInd (i : IndReg)
  /-- `mul` (R76), format IMP. -/
  | mul
  /-- `div` (R77), format IMP. -/
  | div
  /-- `and #i8` (R80), format IMM. -/
  | andImm (v : Byte)
  /-- `and d9` (R80), format DIR. -/
  | andDir (d : DataAddr)
  /-- `and @Ri` (R80), format IND. -/
  | andInd (i : IndReg)
  /-- `or #i8` (R81), format IMM. -/
  | orImm (v : Byte)
  /-- `or d9` (R81), format DIR. -/
  | orDir (d : DataAddr)
  /-- `or @Ri` (R81), format IND. -/
  | orInd (i : IndReg)
  /-- `xor #i8` (R82), format IMM. -/
  | xorImm (v : Byte)
  /-- `xor d9` (R82), format DIR. -/
  | xorDir (d : DataAddr)
  /-- `xor @Ri` (R82), format IND. -/
  | xorInd (i : IndReg)
  /-- `rol` (R83), format IMP. -/
  | rol
  /-- `rolc` (R84), format IMP. -/
  | rolc
  /-- `ror` (R85), format IMP. -/
  | ror
  /-- `rorc` (R86), format IMP. -/
  | rorc
  /-- `clr1 d9, b3` (R90), format BIT. -/
  | clr1 (d : DataAddr) (n : BitNum)
  /-- `set1 d9, b3` (R91), format BIT. -/
  | set1 (d : DataAddr) (n : BitNum)
  /-- `not1 d9, b3` (R92), format BIT. -/
  | not1 (d : DataAddr) (n : BitNum)
  /-- `ld d9` (R100), format DIR. -/
  | ldDir (d : DataAddr)
  /-- `ld @Ri` (R100), format IND. -/
  | ldInd (i : IndReg)
  /-- `st d9` (R101), format DIR. -/
  | stDir (d : DataAddr)
  /-- `st @Ri` (R101), format IND. -/
  | stInd (i : IndReg)
  /-- `mov #i8, d9` (R102), format DIRIMM. -/
  | movDir (v : Byte) (d : DataAddr)
  /-- `mov #i8, @Ri` (R102), format INDIMM. -/
  | movInd (v : Byte) (i : IndReg)
  /-- `ldc` (R103), format IMP. -/
  | ldc
  /-- `push d9` (R104), format DIR. -/
  | push (d : DataAddr)
  /-- `pop d9` (R105), format DIR. -/
  | pop (d : DataAddr)
  /-- `xch d9` (R106), format DIR. -/
  | xchDir (d : DataAddr)
  /-- `xch @Ri` (R106), format IND. -/
  | xchInd (i : IndReg)
  /-- `ldf` (R107), format IMP. -/
  | ldf
  /-- `stf` (R108), format IMP. -/
  | stf
  /-- `jmp a12` (R113), format ABS12. -/
  | jmp (a : PageAddr)
  /-- `jmpf a16` (R114), format ABS16. -/
  | jmpf (a : CodeAddr)
  /-- `br r8` (R115), format REL8. -/
  | br (r : Byte)
  /-- `brf r16` (R116), format REL16. -/
  | brf (r : CodeAddr)
  /-- `bz r8` (R117), format REL8. -/
  | bz (r : Byte)
  /-- `bnz r8` (R118), format REL8. -/
  | bnz (r : Byte)
  /-- `bp d9, b3, r8` (R119), format BITREL. -/
  | bp (d : DataAddr) (n : BitNum) (r : Byte)
  /-- `bpc d9, b3, r8` (R120), format BITREL. -/
  | bpc (d : DataAddr) (n : BitNum) (r : Byte)
  /-- `bn d9, b3, r8` (R121), format BITREL. -/
  | bn (d : DataAddr) (n : BitNum) (r : Byte)
  /-- `dbnz d9, r8` (R122), format DIRREL. -/
  | dbnzDir (d : DataAddr) (r : Byte)
  /-- `dbnz @Ri, r8` (R122), format INDREL. -/
  | dbnzInd (i : IndReg) (r : Byte)
  /-- `be #i8, r8` (R123), format IMMREL. -/
  | beImm (v : Byte) (r : Byte)
  /-- `be d9, r8` (R123), format DIRREL. -/
  | beDir (d : DataAddr) (r : Byte)
  /-- `be @Ri, #i8, r8` (R123), format INDIMMREL. -/
  | beInd (i : IndReg) (v : Byte) (r : Byte)
  /-- `bne #i8, r8` (R124), format IMMREL. -/
  | bneImm (v : Byte) (r : Byte)
  /-- `bne d9, r8` (R124), format DIRREL. -/
  | bneDir (d : DataAddr) (r : Byte)
  /-- `bne @Ri, #i8, r8` (R124), format INDIMMREL. -/
  | bneInd (i : IndReg) (v : Byte) (r : Byte)
  /-- `call a12` (R130), format ABS12. -/
  | call (a : PageAddr)
  /-- `callf a16` (R131), format ABS16. -/
  | callf (a : CodeAddr)
  /-- `callr r16` (R132), format REL16. -/
  | callr (r : CodeAddr)
  /-- `ret` (R133), format IMP. -/
  | ret
  /-- `reti` (R134), format IMP. -/
  | reti
  /-- `nop` (R135), format IMP. -/
  | nop
deriving DecidableEq, Repr

end Sys2Proof
end

