-- ==== Sys2Proof/Decode.lean ====
section
/-! DEFINITION. The decoder and the encoder of `30_encoding.md`: bytes in address order (R51), the length from the
first byte (R56), operand assembly (R53), the opcode map (R55) by the structure of the first byte (R54). -/

namespace Sys2Proof

/-- The high byte of a 16-bit value. -/
def highByte (w : BitVec 16) : Byte := w.extractLsb' 8 8

/-- The low byte of a 16-bit value. -/
def lowByte (w : BitVec 16) : Byte := w.extractLsb' 0 8

/-! ## Decoding -/

/-- The first bytes of the one-byte forms of format IMP (`30_encoding.md` R56). -/
def oneByteFirsts : List Byte :=
  [0x00#8, 0x30#8, 0x40#8, 0x50#8, 0x51#8, 0xA0#8, 0xB0#8, 0xC0#8, 0xC1#8, 0xD0#8, 0xE0#8, 0xF0#8]

/-- The first bytes of the three-byte forms outside the `@Ri` and bit columns (`30_encoding.md` R56). -/
def threeByteFirsts : List Byte :=
  [0x10#8, 0x11#8, 0x20#8, 0x21#8, 0x22#8, 0x23#8, 0x31#8, 0x32#8, 0x33#8, 0x41#8, 0x42#8, 0x43#8, 0x52#8, 0x53#8]

/-- The length of an instruction from its first byte, in the words of `30_encoding.md` R56. -/
def instrLength (b0 : Byte) : Nat :=
  let hi := b0.toNat / 16
  let lo := b0.toNat % 16
  let indirect := 4 ≤ lo ∧ lo ≤ 7
  if oneByteFirsts.contains b0 ∨ (indirect ∧ ¬(2 ≤ hi ∧ hi ≤ 5)) then 1
  else if threeByteFirsts.contains b0 ∨ (indirect ∧ (hi = 3 ∨ hi = 4))
      ∨ (8 ≤ lo ∧ 2 ≤ hi / 2 ∧ hi / 2 ≤ 4) then 3
  else 2

/-- Columns 8 to F of the opcode map: formats BIT, BITREL and ABS12. `B0[7:5]` alone chooses the mnemonic and
`B0[4]` is an operand bit (`30_encoding.md` R53, R54). All eight values of `B0[7:5]` are assigned. -/
def decodeBitColumn (b0 b1 b2 : Byte) : Instr :=
  let top := b0.extractLsb' 4 1
  let low3 := b0.extractLsb' 0 3
  let d : DataAddr := top ++ b1
  let a : PageAddr := top ++ low3 ++ b1
  match (b0.extractLsb' 5 3).toNat with
  | 0 => .call a
  | 1 => .jmp a
  | 2 => .bpc d low3 b2
  | 3 => .bp d low3 b2
  | 4 => .bn d low3 b2
  | 5 => .not1 d low3
  | 6 => .clr1 d low3
  | _ => .set1 d low3

/-- Columns 4 to 7 of the opcode map: the `@Ri` forms, with `i = B0[1:0]`. The row is `B0[7:4]`; all sixteen rows
are assigned, row F (`xor`) last. -/
def decodeIndirectColumn (b0 b1 b2 : Byte) : Instr :=
  let i := b0.extractLsb' 0 2
  match (b0.extractLsb' 4 4).toNat with
  | 0x0 => .ldInd i
  | 0x1 => .stInd i
  | 0x2 => .movInd b1 i
  | 0x3 => .beInd i b1 b2
  | 0x4 => .bneInd i b1 b2
  | 0x5 => .dbnzInd i b1
  | 0x6 => .incInd i
  | 0x7 => .decInd i
  | 0x8 => .addInd i
  | 0x9 => .addcInd i
  | 0xA => .subInd i
  | 0xB => .subcInd i
  | 0xC => .xchInd i
  | 0xD => .orInd i
  | 0xE => .andInd i
  | _ => .xorInd i

/-- Columns 2 and 3 of the opcode map: the direct forms, with `d9 = B0[0] ++ B1`. The row is `B0[7:4]`; all sixteen
rows are assigned, row F (`xor`) last. In `mov` the address byte stands before the immediate byte (R63). -/
def decodeDirectColumn (b0 b1 b2 : Byte) : Instr :=
  let d : DataAddr := b0.extractLsb' 0 1 ++ b1
  match (b0.extractLsb' 4 4).toNat with
  | 0x0 => .ldDir d
  | 0x1 => .stDir d
  | 0x2 => .movDir b2 d
  | 0x3 => .beDir d b2
  | 0x4 => .bneDir d b2
  | 0x5 => .dbnzDir d b2
  | 0x6 => .incDir d
  | 0x7 => .decDir d
  | 0x8 => .addDir d
  | 0x9 => .addcDir d
  | 0xA => .subDir d
  | 0xB => .subcDir d
  | 0xC => .xchDir d
  | 0xD => .orDir d
  | 0xE => .andDir d
  | _ => .xorDir d

/-- Columns 0 and 1 of the opcode map: formats IMP, REL8, REL16, ABS16, IMM, IMMREL, and `push`, `pop` (rows 6 and 7,
whose `B0[0]` is `d8`). The row is `B0[7:4]`; all sixteen rows are assigned, row F last. -/
def decodePlainColumn (b0 b1 b2 : Byte) : Instr :=
  let d : DataAddr := b0.extractLsb' 0 1 ++ b1
  let odd := b0.getLsbD 0
  match (b0.extractLsb' 4 4).toNat with
  | 0x0 => if odd then .br b1 else .nop
  | 0x1 => if odd then .brf (b2 ++ b1) else .callr (b2 ++ b1)
  | 0x2 => if odd then .jmpf (b1 ++ b2) else .callf (b1 ++ b2)
  | 0x3 => if odd then .beImm b1 b2 else .mul
  | 0x4 => if odd then .bneImm b1 b2 else .div
  | 0x5 => if odd then .stf else .ldf
  | 0x6 => .push d
  | 0x7 => .pop d
  | 0x8 => if odd then .addImm b1 else .bz b1
  | 0x9 => if odd then .addcImm b1 else .bnz b1
  | 0xA => if odd then .subImm b1 else .ret
  | 0xB => if odd then .subcImm b1 else .reti
  | 0xC => if odd then .ldc else .ror
  | 0xD => if odd then .orImm b1 else .rorc
  | 0xE => if odd then .andImm b1 else .rol
  | _ => if odd then .xorImm b1 else .rolc

/-- The instruction whose bytes are `b0`, `b1`, `b2` in address order. It is total: every first byte is assigned to
exactly one form (`30_encoding.md` R57), and a byte beyond the form's length is not looked at. -/
def decode (b0 b1 b2 : Byte) : Instr :=
  if b0.getLsbD 3 then decodeBitColumn b0 b1 b2
  else if b0.getLsbD 2 then decodeIndirectColumn b0 b1 b2
  else if b0.getLsbD 1 then decodeDirectColumn b0 b1 b2
  else decodePlainColumn b0 b1 b2

/-- Why a sequence of bytes holds no whole instruction. No byte value is a reason (`30_encoding.md` R57). -/
inductive DecodeError
  /-- The sequence is empty. -/
  | noByte
  /-- The sequence ends before the instruction that its first byte begins. -/
  | truncated
deriving DecidableEq, Repr

/-- The first instruction of a sequence of bytes, and the bytes after it. -/
def decodeBytes : List Byte → Except DecodeError (Instr × List Byte)
  | [] => .error .noByte
  | b0 :: rest =>
    if rest.length + 1 < instrLength b0 then .error .truncated
    else .ok (decode b0 (rest.getD 0 0#8) (rest.getD 1 0#8), rest.drop (instrLength b0 - 1))

/-- The bytes, in address order, of an opcode-table word of `nbits` bits numbered from the least significant bit of the
first byte; the longest instruction has three bytes, and the bits above `nbits` are 0. -/
def tableBytes (nbits w : Nat) : List Byte :=
  let v := w % 2 ^ nbits
  [BitVec.ofNat 8 v, BitVec.ofNat 8 (v / 256), BitVec.ofNat 8 (v / 65536)]

/-- The instruction the decoder reads from an opcode-table word. -/
def decodeTableWord (nbits w : Nat) : Option Instr :=
  match decodeBytes (tableBytes nbits w) with
  | .ok (i, _) => some i
  | .error _ => none

/-! ## Encoding -/

/-- Format DIR: seven opcode bits and `d8`, then `d7..d0` (`30_encoding.md` R52). -/
def encDir (op : BitVec 7) (d : DataAddr) : List Byte :=
  [op ++ d.extractLsb' 8 1, d.extractLsb' 0 8]

/-- Format BIT: three opcode bits, `d8`, a fixed 1, `b2..b0`, then `d7..d0` (`30_encoding.md` R52). -/
def encBit (op : BitVec 3) (d : DataAddr) (n : BitNum) : List Byte :=
  [op ++ d.extractLsb' 8 1 ++ 0b1#1 ++ n, d.extractLsb' 0 8]

/-- Format ABS12: three opcode bits, `a11`, a fixed 1, `a10..a8`, then `a7..a0` (`30_encoding.md` R52). -/
def encPage (op : BitVec 3) (a : PageAddr) : List Byte :=
  [op ++ a.extractLsb' 11 1 ++ 0b1#1 ++ a.extractLsb' 8 3, a.extractLsb' 0 8]

/-- The bytes of an instruction in address order: the bit patterns of `30_encoding.md` R55, row by row. -/
def encode : Instr → List Byte
  | .addImm v => [0b10000001#8, v]
  | .addDir d => encDir 0b1000001#7 d
  | .addInd i => [0b100001#6 ++ i]
  | .addcImm v => [0b10010001#8, v]
  | .addcDir d => encDir 0b1001001#7 d
  | .addcInd i => [0b100101#6 ++ i]
  | .subImm v => [0b10100001#8, v]
  | .subDir d => encDir 0b1010001#7 d
  | .subInd i => [0b101001#6 ++ i]
  | .subcImm v => [0b10110001#8, v]
  | .subcDir d => encDir 0b1011001#7 d
  | .subcInd i => [0b101101#6 ++ i]
  | .incDir d => encDir 0b0110001#7 d
  | .incInd i => [0b011001#6 ++ i]
  | .decDir d => encDir 0b0111001#7 d
  | .decInd i => [0b011101#6 ++ i]
  | .mul => [0b00110000#8]
  | .div => [0b01000000#8]
  | .andImm v => [0b11100001#8, v]
  | .andDir d => encDir 0b1110001#7 d
  | .andInd i => [0b111001#6 ++ i]
  | .orImm v => [0b11010001#8, v]
  | .orDir d => encDir 0b1101001#7 d
  | .orInd i => [0b110101#6 ++ i]
  | .xorImm v => [0b11110001#8, v]
  | .xorDir d => encDir 0b1111001#7 d
  | .xorInd i => [0b111101#6 ++ i]
  | .rol => [0b11100000#8]
  | .rolc => [0b11110000#8]
  | .ror => [0b11000000#8]
  | .rorc => [0b11010000#8]
  | .clr1 d n => encBit 0b110#3 d n
  | .set1 d n => encBit 0b111#3 d n
  | .not1 d n => encBit 0b101#3 d n
  | .ldDir d => encDir 0b0000001#7 d
  | .ldInd i => [0b000001#6 ++ i]
  | .stDir d => encDir 0b0001001#7 d
  | .stInd i => [0b000101#6 ++ i]
  | .movDir v d => encDir 0b0010001#7 d ++ [v]
  | .movInd v i => [0b001001#6 ++ i, v]
  | .ldc => [0b11000001#8]
  | .push d => encDir 0b0110000#7 d
  | .pop d => encDir 0b0111000#7 d
  | .xchDir d => encDir 0b1100001#7 d
  | .xchInd i => [0b110001#6 ++ i]
  | .ldf => [0b01010000#8]
  | .stf => [0b01010001#8]
  | .jmp a => encPage 0b001#3 a
  | .jmpf a => [0b00100001#8, highByte a, lowByte a]
  | .br r => [0b00000001#8, r]
  | .brf r => [0b00010001#8, lowByte r, highByte r]
  | .bz r => [0b10000000#8, r]
  | .bnz r => [0b10010000#8, r]
  | .bp d n r => encBit 0b011#3 d n ++ [r]
  | .bpc d n r => encBit 0b010#3 d n ++ [r]
  | .bn d n r => encBit 0b100#3 d n ++ [r]
  | .dbnzDir d r => encDir 0b0101001#7 d ++ [r]
  | .dbnzInd i r => [0b010101#6 ++ i, r]
  | .beImm v r => [0b00110001#8, v, r]
  | .beDir d r => encDir 0b0011001#7 d ++ [r]
  | .beInd i v r => [0b001101#6 ++ i, v, r]
  | .bneImm v r => [0b01000001#8, v, r]
  | .bneDir d r => encDir 0b0100001#7 d ++ [r]
  | .bneInd i v r => [0b010001#6 ++ i, v, r]
  | .call a => encPage 0b000#3 a
  | .callf a => [0b00100000#8, highByte a, lowByte a]
  | .callr r => [0b00010000#8, lowByte r, highByte r]
  | .ret => [0b10100000#8]
  | .reti => [0b10110000#8]
  | .nop => [0b00000000#8]

end Sys2Proof
end

