-- ==== Sys2Proof/Config.lean ====
section
/-! DEFINITION. The implementation parameters of `00_scope.md` section 4, and the free values: the constants
without a body that stand for what the spec leaves open. -/

namespace Sys2Proof.Config

/-- `ADDR_ACC` (`10_state.md` R23, decision D3). -/
def addrAcc : DataAddr := 0x100#9
/-- `ADDR_PSW` (`10_state.md` R23, decision D3). -/
def addrPsw : DataAddr := 0x101#9
/-- `ADDR_B` (`10_state.md` R23, decision D3). -/
def addrB : DataAddr := 0x102#9
/-- `ADDR_C` (`10_state.md` R23, decision D3). -/
def addrC : DataAddr := 0x103#9
/-- `ADDR_TRL` (`10_state.md` R23, decision D3). -/
def addrTrl : DataAddr := 0x104#9
/-- `ADDR_TRH` (`10_state.md` R23, decision D3). -/
def addrTrh : DataAddr := 0x105#9
/-- `ADDR_SP` (`10_state.md` R23, decision D3). -/
def addrSp : DataAddr := 0x106#9

/-- `BIT_CY`: the place of `cy` in `psw` (`10_state.md` R15, decision D4). -/
def bitCy : Nat := 7
/-- `BIT_AC`: the place of `ac` in `psw` (`10_state.md` R15, decision D4). -/
def bitAc : Nat := 6
/-- `BIT_OV`: the place of `ov` in `psw` (`10_state.md` R15, decision D4). -/
def bitOv : Nat := 2
/-- `BIT_IRBK0`: the lower of the two adjacent bits `irbk1`, `irbk0` (`10_state.md` R24, decision D4). -/
def bitIrbk0 : Nat := 3
/-- `BIT_RAMBK0`: the RAM bank bit (`10_state.md` R24, decision D4). -/
def bitRambk0 : Nat := 1
/-- The six bits of `psw` that have a function: 7, 6, 4, 3, 2, 1 (`10_state.md` R24, decision D31). -/
def pswFunctional : Byte := 0xDE#8

/-- `RAM_BANKS` (`00_scope.md` section 4, decision D5). -/
def ramBanks : Nat := 2
/-- Cells in one RAM bank (`10_state.md` R14). -/
def bankSize : Nat := 256
/-- `STACK_BANK`: the RAM bank `sp` addresses (`20_memory.md` R33, decision D7). -/
def stackBank : Nat := 0
/-- `CODE_SIZE` (`00_scope.md` section 4). -/
def codeSize : Nat := 65536

/-- `RI_PTR_BANK`: the bank the pointer cell of `@Ri` is read from (`20_memory.md` R32). The spec leaves it OPEN
with the default `current`; the launch picks it (log 10). -/
inductive PtrBank
  | current
  | bank0
deriving DecidableEq, Repr

/-- `DEVICE_POLICY`: what an access to data addresses 0x107..0x1FF does (`20_memory.md` R38). The default is
`refuse`; the launch picks it (log 11). -/
inductive DevicePolicy
  | refuse
  | oracle
deriving DecidableEq, Repr

/-- The four results of `div` that the spec leaves open when `b = 0` (`40_arithmetic.md` R77, decision D16). -/
structure DivZero where
  acc : Byte
  c : Byte
  b : Byte
  ov : Bool
deriving DecidableEq, Repr, Inhabited

/-- FREE VALUE (log 7). `psw` bits 5 and 0 as one data read of `psw` finds them: any value (`10_state.md` R24, U5).
Bit 1 of the result stands for `psw[5]`, bit 0 for `psw[0]`; the argument is the number of the draw. -/
opaque pswOpenBits (draw : Nat) : BitVec 2

/-- FREE VALUE (log 9). `div_by_zero`: the results of `div` when `b = 0`, from the number of the draw and the old
`acc`, `c`, `psw` (`40_arithmetic.md` R77, U3). -/
opaque divByZero (draw : Nat) (acc c psw : Byte) : DivZero

/-- FREE VALUE (log 11). What a read of the device region finds under the policy `oracle`: a draw
(`20_memory.md` R38, U7). -/
opaque deviceRead (draw : Nat) (a : DataAddr) : Byte

end Sys2Proof.Config
end

