-- ==== Sys2Proof/Machine/State.lean ====
section
/-! DEFINITION. The state of the machine (`10_state.md` R10) as plain data, the reasons a step can stop, and the state
after reset. -/

namespace Sys2Proof.Machine

/-- A memory: the cells that have a value, as (key, byte) pairs with the keys strictly rising. A key that is not
listed has no value (logs 1 and 2). -/
abbrev Memory := List Host.Cell

/-- One move of the interrupt agent, made at one instruction boundary (`60_exceptions.md` R142, R143; log 6). -/
inductive AgentMove
  /-- The agent asks for nothing at this boundary. -/
  | quiet
  /-- The agent asks for delivery to the code address `vector`. -/
  | request (vector : CodeAddr)
deriving DecidableEq, Repr

/-- The state. INVENTORY.md names the rule of each field; `tr` and R0..R3 are no fields (`10_state.md` R13, R18). -/
structure State where
  /-- The accumulator (`10_state.md` R11). -/
  acc : Byte
  /-- Register `b` (`10_state.md` R12). -/
  b : Byte
  /-- Register `c` (`10_state.md` R12). -/
  c : Byte
  /-- The low byte of `tr` (`10_state.md` R13). -/
  trl : Byte
  /-- The high byte of `tr` (`10_state.md` R13). -/
  trh : Byte
  /-- The stack pointer: the cell pushed last (`10_state.md` R16). -/
  sp : Byte
  /-- The status register; bits 5 and 0 hold nothing and stay 0 (`10_state.md` R15, R24; log 7). -/
  psw : Byte
  /-- The program counter (`10_state.md` R17). -/
  pc : CodeAddr
  /-- The two RAM banks; cell `a` of bank `k` has key `256 * k + a` (`10_state.md` R14, R21). -/
  ram : Memory
  /-- The code ("ROM") space: the program image (`10_state.md` R19). -/
  code : Memory
  /-- Flash storage, opaque: nothing reads or writes it (`10_state.md` R20; log 14). -/
  flash : Memory
  /-- `int_hold`: interrupt handling is suspended (`10_state.md` R22). -/
  intHold : Bool
  /-- Launch parameter `interrupt_agent`: the agent's moves still to come, the next one first; none left means that it
  never asks again (`60_exceptions.md` R142; log 6). -/
  agent : List AgentMove
  /-- Launch parameter `RI_PTR_BANK` (`20_memory.md` R32; log 10). -/
  riPtrBank : Config.PtrBank
  /-- Launch parameter `DEVICE_POLICY` (`20_memory.md` R38; log 11). -/
  devicePolicy : Config.DevicePolicy
  /-- The model's own: the writes to the device region under the policy `oracle`, oldest first (`20_memory.md` R38). -/
  deviceWrites : List (DataAddr × Byte)
  /-- The model's own: how many draws of free values lie behind; the next draw has this number (log 8). -/
  draws : Nat
deriving DecidableEq, Repr

/-- Why the model stops although the hardware has no fault (`60_exceptions.md` R140). -/
inductive Fault
  /-- Raised by every read of a RAM cell that nothing has written: the cell has no value
  (`70_reset_and_hazards.md` R166, U10). Safe: the hardware goes on with a value nobody knows (log 1). -/
  | unsetRam (bank : Nat) (cell : Byte)
deriving DecidableEq, Repr

/-- What the model gives no meaning. -/
inductive Refusal
  /-- Raised by `exec` alone, for an instruction that has no meaning yet. Safe. No instruction is left so. -/
  | notModelled (mnemonic : String)
  /-- Raised by a data access to 0x107..0x1FF under the policy `refuse` (`20_memory.md` R38). Safe. -/
  | deviceRegion (addr : DataAddr)
  /-- Raised by `ldf` (`43_data_transfer.md` R107). Safe. -/
  | flashLoad
  /-- Raised by `stf` (`43_data_transfer.md` R108). Safe. -/
  | flashStore
  /-- Raised by `push` and `pop` of `sp` itself (`43_data_transfer.md` R104, R105, U4). Safe. -/
  | stackPointerOperand
  /-- Raised by a fetch or an `ldc` of a code cell that the image does not cover (`20_memory.md` R34, U14). Safe. -/
  | codeNotCovered (addr : CodeAddr)
deriving DecidableEq, Repr

/-- The machine after reset. The spec gives no reset value (`10_state.md` R26): logs 1 to 6, 8, 10 and 11 name each. -/
def State.reset : State where
  acc := 0#8
  b := 0#8
  c := 0#8
  trl := 0#8
  trh := 0#8
  sp := 0#8
  psw := 0#8
  pc := 0#16
  ram := []
  code := []
  flash := []
  intHold := false
  agent := []
  riPtrBank := .current
  devicePolicy := .refuse
  deviceWrites := []
  draws := 0

end Sys2Proof.Machine
end

