-- ==== Sys2Proof/Machine/Flags.lean ====
section
/-! DEFINITION. The flags: where they stand in `psw` (`10_state.md` R15) and how each instruction family computes them
(`40_arithmetic.md` R70 to R77, `44_jump_branch.md` R123, R124). -/

namespace Sys2Proof.Machine

/-- `v` with bit `n` set to `x`, every other bit kept (`10_state.md` R15, `42_bit.md`). -/
def withBit (v : Byte) (n : Nat) (x : Bool) : Byte :=
  if x then v ||| (1#8 <<< n) else v &&& ~~~(1#8 <<< n)

/-- The carry flag. -/
def State.cy (s : State) : Bool := s.psw.getLsbD Config.bitCy

/-- The auxiliary carry flag. -/
def State.ac (s : State) : Bool := s.psw.getLsbD Config.bitAc

/-- The overflow flag. -/
def State.ov (s : State) : Bool := s.psw.getLsbD Config.bitOv

/-- `cy <- x`: that bit of `psw` and no other (`10_state.md` R15). -/
def State.setCy (s : State) (x : Bool) : State := { s with psw := withBit s.psw Config.bitCy x }

/-- `ac <- x`: that bit of `psw` and no other (`10_state.md` R15). -/
def State.setAc (s : State) (x : Bool) : State := { s with psw := withBit s.psw Config.bitAc x }

/-- `ov <- x`: that bit of `psw` and no other (`10_state.md` R15). -/
def State.setOv (s : State) (x : Bool) : State := { s with psw := withBit s.psw Config.bitOv x }

/-! ## Addition: `a + m + k` (R70 with `k` = 0, R71 with `k` = old `cy`; log 16) -/

/-- The exact sum, 0..511. -/
def addExact (a m : Byte) (k : Bool) : Nat := a.toNat + m.toNat + k.toNat

/-- The 8-bit sum. -/
def addResult (a m : Byte) (k : Bool) : Byte := BitVec.ofNat 8 (addExact a m k)

/-- `cy`: the carry out of bit 7. -/
def addCy (a m : Byte) (k : Bool) : Bool := decide (255 < addExact a m k)

/-- `ac`: the carry out of bit 3. -/
def addAc (a m : Byte) (k : Bool) : Bool := decide (15 < a.toNat % 16 + m.toNat % 16 + k.toNat)

/-- `ov`: both terms have the sign that the result has not. -/
def addOv (a m : Byte) (k : Bool) : Bool := a.msb == m.msb && (addResult a m k).msb != a.msb

/-! ## Subtraction: `a - m - k` (R72 with `k` = 0, R73 with `k` = old `cy`; log 16) -/

/-- The exact difference, -256..255. -/
def subExact (a m : Byte) (k : Bool) : Int := (a.toNat : Int) - m.toNat - k.toNat

/-- The 8-bit difference. -/
def subResult (a m : Byte) (k : Bool) : Byte := BitVec.ofInt 8 (subExact a m k)

/-- `cy`: the borrow into bit 7, not its complement. -/
def subCy (a m : Byte) (k : Bool) : Bool := decide (subExact a m k < 0)

/-- `ac`: the borrow into bit 3. -/
def subAc (a m : Byte) (k : Bool) : Bool := decide (a.toNat % 16 < m.toNat % 16 + k.toNat)

/-- `ov`: the terms differ in sign and the result has not the sign of `a`. -/
def subOv (a m : Byte) (k : Bool) : Bool := a.msb != m.msb && (subResult a m k).msb != a.msb

/-- The three flags of `add`, `addc`, `sub`, `subc` at once (`10_state.md` R25). -/
def State.setArith (s : State) (cy ac ov : Bool) : State := ((s.setCy cy).setAc ac).setOv ov

/-! ## Compare (R123, R124; log 16) -/

/-- `cy` of `be` and `bne`: `x` is less than `y`, unsigned; cleared otherwise. -/
def compareCy (x y : Byte) : Bool := decide (x.toNat < y.toNat)

end Sys2Proof.Machine
end

