-- ==== Sys2Proof/Machine/Memory.lean ====
section
/-! DEFINITION. Reading and writing a memory kept as a sorted list of cells, and the canonical form. -/

namespace Sys2Proof.Machine

/-- What an unlisted key reads as: no value. Every read of a memory ends here when it finds no entry
(`70_reset_and_hazards.md` R166, `20_memory.md` R34; logs 1 and 2). -/
def Memory.unlisted : Option Byte := none

/-- The value of a cell. -/
def Memory.read : Memory → Nat → Option Byte
  | [], _ => Memory.unlisted
  | (k, v) :: m, a => if a = k then some v else Memory.read m a

/-- The memory with one cell written. The keys stay strictly rising. -/
def Memory.write : Memory → Nat → Byte → Memory
  | [], a, v => [(a, v)]
  | (k, w) :: m, a, v =>
    if a < k then (a, v) :: (k, w) :: m
    else if a = k then (a, v) :: m
    else (k, w) :: Memory.write m a v

/-- The canonical form of a memory whose keys lie below `bound`: the keys strictly rise. No entry can equal what an
unlisted key reads as, since an entry has a value. -/
def Memory.wf (bound : Nat) : Memory → Bool
  | [] => true
  | (k, _) :: m => decide (k < bound) && m.all (fun cell => decide (k < cell.1)) && Memory.wf bound m

end Sys2Proof.Machine
end

