-- ==== Sys2Proof/Machine/Ops.lean ====
section
/-! DEFINITION. The named operations on memory and registers: the access primitives of `20_memory.md` R30 to R34, the
stack, the program counter, control-flow targets, taking an interrupt and returning from one. -/

namespace Sys2Proof.Machine

/-- What an operation answers: a value, or the stop that the step then makes. -/
abbrev Result (α : Type) := Host.Outcome α Fault Refusal

/-- Go on with the value of `r`, or stop as `r` stops. -/
def onValue {α β : Type} (r : Result α) (k : α → Result β) : Result β :=
  match r with
  | .next v => k v
  | .fault f => .fault f
  | .refused f => .refused f

/-! ## RAM, stack and code -/

/-- The RAM bank that data addresses 0x000..0x0FF reach: `psw[1]` (`20_memory.md` R30). -/
def State.ramBank (s : State) : Nat := (s.psw.getLsbD Config.bitRambk0).toNat

/-- The key of cell `a` of RAM bank `bank`. -/
def ramKey (bank : Nat) (a : Byte) : Nat := Config.bankSize * bank + a.toNat

/-- Read a RAM cell of a bank. A cell that nothing has written has no value (`70_reset_and_hazards.md` R166). -/
def State.ramRead (s : State) (bank : Nat) (a : Byte) : Result Byte :=
  match Memory.read s.ram (ramKey bank a) with
  | some v => .next v
  | none => .fault (.unsetRam bank a)

/-- Write a RAM cell of a bank. -/
def State.ramWrite (s : State) (bank : Nat) (a v : Byte) : State :=
  { s with ram := Memory.write s.ram (ramKey bank a) v }

/-- `StackRead(p)`: RAM bank 0 whatever `psw` says (`20_memory.md` R33). -/
def State.stackRead (s : State) (p : Byte) : Result Byte := s.ramRead Config.stackBank p

/-- `StackWrite(p, v)` (`20_memory.md` R33). -/
def State.stackWrite (s : State) (p v : Byte) : State := s.ramWrite Config.stackBank p v

/-- `CodeRead(a)`. A cell the image does not cover is refused (`20_memory.md` R34). -/
def State.codeRead (s : State) (a : CodeAddr) : Result Byte :=
  match Memory.read s.code a.toNat with
  | some v => .next v
  | none => .refused (.codeNotCovered a)

/-! ## The data space -/

/-- The seven named registers (`10_state.md` R23). -/
inductive NamedReg
  | acc
  | psw
  | b
  | c
  | trl
  | trh
  | sp
deriving DecidableEq, Repr

/-- What stands at a data address (`10_state.md` R14, `20_memory.md` R39). -/
inductive CellKind
  /-- 0x000..0x0FF: a cell of the current RAM bank. -/
  | ram (cell : Byte)
  /-- 0x100..0x106: a named register. -/
  | reg (r : NamedReg)
  /-- 0x107..0x1FF: the device region. -/
  | device
deriving DecidableEq, Repr

/-- The map of the data space (`20_memory.md` R39). -/
def cellAt (a : DataAddr) : CellKind :=
  if a.toNat < Config.bankSize then .ram (a.setWidth 8)
  else if a = Config.addrAcc then .reg .acc
  else if a = Config.addrPsw then .reg .psw
  else if a = Config.addrB then .reg .b
  else if a = Config.addrC then .reg .c
  else if a = Config.addrTrl then .reg .trl
  else if a = Config.addrTrh then .reg .trh
  else if a = Config.addrSp then .reg .sp
  else .device

/-- `psw` as a data read finds it: bits 5 and 0 are any value (`10_state.md` R24; log 7). -/
def State.pswSeen (s : State) : Byte :=
  let any := Config.pswOpenBits s.draws
  withBit (withBit s.psw 5 (any.getLsbD 1)) 0 (any.getLsbD 0)

/-- Read a named register as data (`10_state.md` R23). -/
def State.regRead (s : State) : NamedReg → Byte
  | .acc => s.acc
  | .psw => s.pswSeen
  | .b => s.b
  | .c => s.c
  | .trl => s.trl
  | .trh => s.trh
  | .sp => s.sp

/-- Write a named register as data (`10_state.md` R23). A write to `psw` stores the six bits that have a function and
drops bits 5 and 0 (`20_memory.md` R31). -/
def State.regWrite (s : State) (r : NamedReg) (v : Byte) : State :=
  match r with
  | .acc => { s with acc := v }
  | .psw => { s with psw := v &&& Config.pswFunctional }
  | .b => { s with b := v }
  | .c => { s with c := v }
  | .trl => { s with trl := v }
  | .trh => { s with trh := v }
  | .sp => { s with sp := v }

/-- A read of the device region (`20_memory.md` R38): refused, or a draw. -/
def State.deviceRead (s : State) (a : DataAddr) : Result Byte :=
  match s.devicePolicy with
  | .refuse => .refused (.deviceRegion a)
  | .oracle => .next (Config.deviceRead s.draws a)

/-- A write to the device region (`20_memory.md` R38): refused, or recorded. -/
def State.deviceWrite (s : State) (a : DataAddr) (v : Byte) : Result State :=
  match s.devicePolicy with
  | .refuse => .refused (.deviceRegion a)
  | .oracle => .next { s with deviceWrites := s.deviceWrites ++ [(a, v)] }

/-- `DataRead(a)` (`20_memory.md` R30). -/
def State.dataRead (s : State) (a : DataAddr) : Result Byte :=
  match cellAt a with
  | .ram cell => s.ramRead s.ramBank cell
  | .reg r => .next (s.regRead r)
  | .device => s.deviceRead a

/-- `DataWrite(a, v)` (`20_memory.md` R31). -/
def State.dataWrite (s : State) (a : DataAddr) (v : Byte) : Result State :=
  match cellAt a with
  | .ram cell => .next (s.ramWrite s.ramBank cell v)
  | .reg r => .next (s.regWrite r v)
  | .device => s.deviceWrite a v

/-! ## The program counter and control-flow targets -/

/-- `next` for an instruction of `len` bytes: the address of the following instruction (`00_scope.md` R4, R17). -/
def State.following (s : State) (len : Nat) : CodeAddr := s.pc + BitVec.ofNat 16 len

/-- `pc <- target`. -/
def State.jumpTo (s : State) (target : CodeAddr) : State := { s with pc := target }

/-- `pc <- next`. -/
def State.advance (s : State) (len : Nat) : State := s.jumpTo (s.following len)

/-- `rel8(next, r8)`: a signed offset (`44_jump_branch.md` R110). -/
def rel8 (next : CodeAddr) (r : Byte) : CodeAddr := next + r.signExtend 16

/-- `rel16(next, r16)`: relative to `next - 1` (`44_jump_branch.md` R111). -/
def rel16 (next r : CodeAddr) : CodeAddr := next - 1#16 + r

/-- `page12(next, a12)`: the high 4 bits are those of `next` (`44_jump_branch.md` R112). -/
def page12 (next : CodeAddr) (a : PageAddr) : CodeAddr := next.extractLsb' 12 4 ++ a

/-- `tr`: `trh` is the high byte, `trl` the low byte (`10_state.md` R13). -/
def State.tr (s : State) : CodeAddr := s.trh ++ s.trl

/-! ## The stack -/

/-- `Push(v)`: `sp` moves up first (`43_data_transfer.md` R104). -/
def State.push (s : State) (v : Byte) : State :=
  { s with sp := s.sp + 1#8 }.stackWrite (s.sp + 1#8) v

/-- `Pop()`: the value and the state after `sp` has moved down (`43_data_transfer.md` R105). -/
def State.pop (s : State) : Result (Byte × State) :=
  onValue (s.stackRead s.sp) fun v => .next (v, { s with sp := s.sp - 1#8 })

/-- Push a code address: low byte, then high byte (`45_call_return.md` R136). -/
def State.pushAddr (s : State) (w : CodeAddr) : State := (s.push (lowByte w)).push (highByte w)

/-- Pop `pc`: high byte, then low byte (`45_call_return.md` R133, R136). -/
def State.popPc (s : State) : Result State :=
  onValue s.pop fun high =>
    onValue high.2.pop fun low =>
      .next (low.2.jumpTo (high.1 ++ low.1))

/-! ## Interrupts -/

/-- Interrupt entry at a boundary (`60_exceptions.md` R145): `pc` is pushed, low byte first, `int_hold` is set and `pc`
goes to the vector. Nothing else is saved or changed; in particular not `psw`. -/
def State.takeInterrupt (s : State) (vector : CodeAddr) : State :=
  { s.pushAddr s.pc with intHold := true, pc := vector }

/-- Return from an interrupt (`60_exceptions.md` R146, `45_call_return.md` R134): `pc` is popped and `int_hold`
cleared. Nothing else is restored. -/
def State.returnFromInterrupt (s : State) : Result State :=
  onValue s.popPc fun t => .next { t with intHold := false }

/-- What happens at an instruction boundary (`60_exceptions.md` R143). -/
inductive Boundary
  /-- An interrupt is delivered: the state after its entry. -/
  | deliver (t : State)
  /-- The next instruction runs from this state. -/
  | run (t : State)
deriving DecidableEq, Repr

/-- The interrupt agent's move at an instruction boundary (`60_exceptions.md` R142 to R147; log 6). A request is
delivered only when `int_hold` is clear; while it is set the request waits. -/
def State.boundary (s : State) : Boundary :=
  match s.agent with
  | [] => .run s
  | .quiet :: moves => .run { s with agent := moves }
  | .request vector :: moves =>
    if s.intHold then .run s else .deliver ({ s with agent := moves }.takeInterrupt vector)

/-- The end of an instruction: the next draw of a free value is a new one (log 8). -/
def State.tick (s : State) : State := { s with draws := s.draws + 1 }

end Sys2Proof.Machine
end

