-- ==== Sys2Proof/Machine/Operands.lean ====
section
/-! DEFINITION. The operand forms of `30_encoding.md` R67 (`ea`, `m`) and the shapes an instruction over an operand can
have: a value into `acc`, a cell changed in place, a compare and branch. -/

namespace Sys2Proof.Machine

/-- The data address of the pointer cell of `@Ri`: `(psw[4:3] << 2) | i`, a value 0x00..0x0F (`20_memory.md` R32). -/
def State.pointerCell (s : State) (i : IndReg) : Byte :=
  (s.psw.extractLsb' Config.bitIrbk0 2 ++ i).setWidth 8

/-- The bank the pointer cell of `@Ri` is read from (`RI_PTR_BANK`, `20_memory.md` R32). -/
def State.pointerBank (s : State) : Nat :=
  match s.riPtrBank with
  | .current => s.ramBank
  | .bank0 => 0

/-- `IndAddr(i)`: the data address that `@Ri` denotes now (`20_memory.md` R32). R0 and R1 reach 0x000..0x0FF, R2 and R3
reach 0x100..0x1FF. -/
def State.indAddr (s : State) (i : IndReg) : Result DataAddr :=
  onValue (s.ramRead s.pointerBank (s.pointerCell i)) fun pointer =>
    .next (i.extractLsb' 1 1 ++ pointer)

/-- `m` of an `@Ri` form (`30_encoding.md` R67): the pointer is resolved before the access. -/
def State.indValue (s : State) (i : IndReg) : Result Byte :=
  onValue (s.indAddr i) fun ea => s.dataRead ea

/-- `acc <- v`. -/
def State.setAcc (s : State) (v : Byte) : State := { s with acc := v }

/-- Read the cell `ea`, write back what `f` makes of it, go on to the next instruction (`20_memory.md` R37). -/
def State.modifyCell (s : State) (ea : DataAddr) (f : Byte → Byte) (len : Nat) : Result State :=
  onValue (s.dataRead ea) fun v =>
    onValue (s.dataWrite ea (f v)) fun t => .next (t.advance len)

/-- Go to `rel8(next, r)` when `taken` holds, to `next` when not. -/
def State.branchIf (s : State) (taken : Bool) (len : Nat) (r : Byte) : State :=
  s.jumpTo (if taken then rel8 (s.following len) r else s.following len)

end Sys2Proof.Machine
end

