-- ==== Sys2Proof/Machine/Arithmetic.lean ====
section
/-! DEFINITION. The meanings of `40_arithmetic.md`: add, addc, sub, subc (R70 to R73), inc, dec (R74, R75), mul (R76),
div (R77). -/

namespace Sys2Proof.Machine

/-! ## add, addc, sub, subc -/

/-- `acc <- acc + m + k` with the three flags, then `pc <- next` (R70, R71). -/
def State.addStep (s : State) (m : Byte) (k : Bool) (len : Nat) : State :=
  ((s.setAcc (addResult s.acc m k)).setArith (addCy s.acc m k) (addAc s.acc m k) (addOv s.acc m k)).advance len

/-- `acc <- acc - m - k` with the three flags, then `pc <- next` (R72, R73). -/
def State.subStep (s : State) (m : Byte) (k : Bool) (len : Nat) : State :=
  ((s.setAcc (subResult s.acc m k)).setArith (subCy s.acc m k) (subAc s.acc m k) (subOv s.acc m k)).advance len

/-- `add #i8` (R70). -/
def execAddImm (v : Byte) (s : State) : Result State := .next (s.addStep v false 2)

/-- `add d9` (R70). -/
def execAddDir (d : DataAddr) (s : State) : Result State :=
  onValue (s.dataRead d) fun m => .next (s.addStep m false 2)

/-- `add @Ri` (R70). -/
def execAddInd (i : IndReg) (s : State) : Result State :=
  onValue (s.indValue i) fun m => .next (s.addStep m false 1)

/-- `addc #i8` (R71). -/
def execAddcImm (v : Byte) (s : State) : Result State := .next (s.addStep v s.cy 2)

/-- `addc d9` (R71). -/
def execAddcDir (d : DataAddr) (s : State) : Result State :=
  onValue (s.dataRead d) fun m => .next (s.addStep m s.cy 2)

/-- `addc @Ri` (R71). -/
def execAddcInd (i : IndReg) (s : State) : Result State :=
  onValue (s.indValue i) fun m => .next (s.addStep m s.cy 1)

/-- `sub #i8` (R72). -/
def execSubImm (v : Byte) (s : State) : Result State := .next (s.subStep v false 2)

/-- `sub d9` (R72). -/
def execSubDir (d : DataAddr) (s : State) : Result State :=
  onValue (s.dataRead d) fun m => .next (s.subStep m false 2)

/-- `sub @Ri` (R72). -/
def execSubInd (i : IndReg) (s : State) : Result State :=
  onValue (s.indValue i) fun m => .next (s.subStep m false 1)

/-- `subc #i8` (R73). -/
def execSubcImm (v : Byte) (s : State) : Result State := .next (s.subStep v s.cy 2)

/-- `subc d9` (R73). -/
def execSubcDir (d : DataAddr) (s : State) : Result State :=
  onValue (s.dataRead d) fun m => .next (s.subStep m s.cy 2)

/-- `subc @Ri` (R73). -/
def execSubcInd (i : IndReg) (s : State) : Result State :=
  onValue (s.indValue i) fun m => .next (s.subStep m s.cy 1)

/-! ## inc, dec -/

/-- One more, mod 256 (R74). -/
def plusOne (v : Byte) : Byte := v + 1#8

/-- One less, mod 256 (R75, `44_jump_branch.md` R122). -/
def minusOne (v : Byte) : Byte := v - 1#8

/-- `inc d9` (R74). -/
def execIncDir (d : DataAddr) (s : State) : Result State := s.modifyCell d plusOne 2

/-- `inc @Ri` (R74). -/
def execIncInd (i : IndReg) (s : State) : Result State :=
  onValue (s.indAddr i) fun ea => s.modifyCell ea plusOne 1

/-- `dec d9` (R75). -/
def execDecDir (d : DataAddr) (s : State) : Result State := s.modifyCell d minusOne 2

/-- `dec @Ri` (R75). -/
def execDecInd (i : IndReg) (s : State) : Result State :=
  onValue (s.indAddr i) fun ea => s.modifyCell ea minusOne 1

/-! ## mul, div -/

/-- The 16-bit operand of `mul` and `div`: `acc` is the high byte, `c` the low byte (R76, R77). -/
def State.accC (s : State) : Nat := 256 * s.acc.toNat + s.c.toNat

/-- `mul` (R76): the 24-bit product goes to `b`, `acc`, `c`, high byte first; `cy` is cleared, `ov` says that the product
does not fit 16 bits, `ac` is unchanged. -/
def execMul (s : State) : Result State :=
  let p := s.accC * s.b.toNat
  let t := { s with b := BitVec.ofNat 8 (p / 65536), acc := BitVec.ofNat 8 (p / 256), c := BitVec.ofNat 8 p }
  .next (((t.setCy false).setOv (decide (65535 < p))).advance 1)

/-- The results of `div`: the 16-bit quotient in `acc`, `c` and the remainder in `b`, `ov` set when the remainder is
zero (R77, `90_conflicts.md` C8; log 17). For a zero divisor all four are free values (decision D16; log 9). -/
def State.divResults (s : State) : Config.DivZero :=
  if s.b = 0#8 then Config.divByZero s.draws s.acc s.c s.psw
  else
    let q := s.accC / s.b.toNat
    let r := s.accC % s.b.toNat
    { acc := BitVec.ofNat 8 (q / 256), c := BitVec.ofNat 8 q, b := BitVec.ofNat 8 r, ov := decide (r = 0) }

/-- `div` (R77): `cy` is cleared in every case and `ac` is unchanged. -/
def execDiv (s : State) : Result State :=
  let o := s.divResults
  let t := { s with acc := o.acc, c := o.c, b := o.b }
  .next (((t.setCy false).setOv o.ov).advance 1)

end Sys2Proof.Machine
end

