-- ==== Sys2Proof/Machine/Bit.lean ====
section
/-! DEFINITION. The meanings of `42_bit.md`: clr1, set1, not1 (R90 to R92). Each reads the whole cell and writes it back
with one bit changed. -/

namespace Sys2Proof.Machine

/-- `v` with bit `n` cleared (R90, `44_jump_branch.md` R120). -/
def clearBit (n : BitNum) (v : Byte) : Byte := withBit v n.toNat false

/-- `v` with bit `n` set (R91). -/
def raiseBit (n : BitNum) (v : Byte) : Byte := withBit v n.toNat true

/-- `v` with bit `n` inverted (R92). -/
def flipBit (n : BitNum) (v : Byte) : Byte := v ^^^ (1#8 <<< n.toNat)

/-- `clr1 d9, b3` (R90). -/
def execClr1 (d : DataAddr) (n : BitNum) (s : State) : Result State := s.modifyCell d (clearBit n) 2

/-- `set1 d9, b3` (R91). -/
def execSet1 (d : DataAddr) (n : BitNum) (s : State) : Result State := s.modifyCell d (raiseBit n) 2

/-- `not1 d9, b3` (R92). -/
def execNot1 (d : DataAddr) (n : BitNum) (s : State) : Result State := s.modifyCell d (flipBit n) 2

end Sys2Proof.Machine
end

