-- ==== Sys2Proof/Machine/Branch.lean ====
section
/-! DEFINITION. The meanings of `44_jump_branch.md`: jmp, jmpf (R113, R114), br, brf (R115, R116), bz, bnz (R117, R118),
bp, bpc, bn (R119 to R121), dbnz (R122), be, bne (R123, R124). -/

namespace Sys2Proof.Machine

/-- `jmp a12` (R113). -/
def execJmp (a : PageAddr) (s : State) : Result State := .next (s.jumpTo (page12 (s.following 2) a))

/-- `jmpf a16` (R114). -/
def execJmpf (a : CodeAddr) (s : State) : Result State := .next (s.jumpTo a)

/-- `br r8` (R115). -/
def execBr (r : Byte) (s : State) : Result State := .next (s.jumpTo (rel8 (s.following 2) r))

/-- `brf r16` (R116). -/
def execBrf (r : CodeAddr) (s : State) : Result State := .next (s.jumpTo (rel16 (s.following 3) r))

/-- `bz r8` (R117): the test reads `acc`; there is no zero flag. -/
def execBz (r : Byte) (s : State) : Result State := .next (s.branchIf (decide (s.acc = 0#8)) 2 r)

/-- `bnz r8` (R118). -/
def execBnz (r : Byte) (s : State) : Result State := .next (s.branchIf (decide (s.acc ≠ 0#8)) 2 r)

/-- `bp d9, b3, r8` (R119). -/
def execBp (d : DataAddr) (n : BitNum) (r : Byte) (s : State) : Result State :=
  onValue (s.dataRead d) fun v => .next (s.branchIf (v.getLsbD n.toNat) 3 r)

/-- `bpc d9, b3, r8` (R120): when the bit is clear nothing is written. -/
def execBpc (d : DataAddr) (n : BitNum) (r : Byte) (s : State) : Result State :=
  onValue (s.dataRead d) fun v =>
    if v.getLsbD n.toNat then onValue (s.dataWrite d (clearBit n v)) fun t => .next (t.branchIf true 3 r)
    else .next (s.branchIf false 3 r)

/-- `bn d9, b3, r8` (R121). -/
def execBn (d : DataAddr) (n : BitNum) (r : Byte) (s : State) : Result State :=
  onValue (s.dataRead d) fun v => .next (s.branchIf (!v.getLsbD n.toNat) 3 r)

/-- Decrement the cell `ea` and branch when the result is not zero; the cell is written either way (R122). -/
def State.countDownStep (s : State) (ea : DataAddr) (len : Nat) (r : Byte) : Result State :=
  onValue (s.dataRead ea) fun v =>
    onValue (s.dataWrite ea (minusOne v)) fun t => .next (t.branchIf (decide (minusOne v ≠ 0#8)) len r)

/-- `dbnz d9, r8` (R122). -/
def execDbnzDir (d : DataAddr) (r : Byte) (s : State) : Result State := s.countDownStep d 3 r

/-- `dbnz @Ri, r8` (R122). -/
def execDbnzInd (i : IndReg) (r : Byte) (s : State) : Result State :=
  onValue (s.indAddr i) fun ea => s.countDownStep ea 2 r

/-- Compare `x` with `y`: `cy` is written either way, and the branch is taken when `x = y` is `wanted` (R123, R124). -/
def State.compareStep (s : State) (x y : Byte) (wanted : Bool) (r : Byte) : State :=
  (s.setCy (compareCy x y)).branchIf (decide (x = y) == wanted) 3 r

/-- `be #i8, r8` (R123). -/
def execBeImm (v r : Byte) (s : State) : Result State := .next (s.compareStep s.acc v true r)

/-- `be d9, r8` (R123). -/
def execBeDir (d : DataAddr) (r : Byte) (s : State) : Result State :=
  onValue (s.dataRead d) fun y => .next (s.compareStep s.acc y true r)

/-- `be @Ri, #i8, r8` (R123): the left side is the cell, not `acc`. -/
def execBeInd (i : IndReg) (v r : Byte) (s : State) : Result State :=
  onValue (s.indValue i) fun x => .next (s.compareStep x v true r)

/-- `bne #i8, r8` (R124). -/
def execBneImm (v r : Byte) (s : State) : Result State := .next (s.compareStep s.acc v false r)

/-- `bne d9, r8` (R124). -/
def execBneDir (d : DataAddr) (r : Byte) (s : State) : Result State :=
  onValue (s.dataRead d) fun y => .next (s.compareStep s.acc y false r)

/-- `bne @Ri, #i8, r8` (R124). -/
def execBneInd (i : IndReg) (v r : Byte) (s : State) : Result State :=
  onValue (s.indValue i) fun x => .next (s.compareStep x v false r)

end Sys2Proof.Machine
end

