-- ==== Sys2Proof/Machine/Call.lean ====
section
/-! DEFINITION. The meanings of `45_call_return.md`: call, callf, callr (R130 to R132), ret (R133), reti (R134),
nop (R135). -/

namespace Sys2Proof.Machine

/-- Push the address of the following instruction and go to `target` (R136). -/
def State.callStep (s : State) (len : Nat) (target : CodeAddr) : State :=
  (s.pushAddr (s.following len)).jumpTo target

/-- `call a12` (R130). -/
def execCall (a : PageAddr) (s : State) : Result State := .next (s.callStep 2 (page12 (s.following 2) a))

/-- `callf a16` (R131). -/
def execCallf (a : CodeAddr) (s : State) : Result State := .next (s.callStep 3 a)

/-- `callr r16` (R132): the address pushed is `next` itself, not `next - 1`. -/
def execCallr (r : CodeAddr) (s : State) : Result State := .next (s.callStep 3 (rel16 (s.following 3) r))

/-- `ret` (R133). -/
def execRet (s : State) : Result State := s.popPc

/-- `reti` (R134): `psw` is not restored. -/
def execReti (s : State) : Result State := s.returnFromInterrupt

/-- `nop` (R135). -/
def execNop (s : State) : Result State := .next (s.advance 1)

end Sys2Proof.Machine
end

