-- ==== Sys2Proof/Machine/Logic.lean ====
section
/-! DEFINITION. The meanings of `41_logic_rotate.md`: and, or, xor (R80 to R82), rol, rolc, ror, rorc (R83 to R86). -/

namespace Sys2Proof.Machine

/-- `acc <- f acc m`, no flag, then `pc <- next` (R80 to R82). -/
def State.logicStep (s : State) (f : Byte → Byte → Byte) (m : Byte) (len : Nat) : State :=
  (s.setAcc (f s.acc m)).advance len

/-- Bit by bit AND (R80). -/
def bitAnd (x y : Byte) : Byte := x &&& y

/-- Bit by bit OR (R81). -/
def bitOr (x y : Byte) : Byte := x ||| y

/-- Bit by bit exclusive OR (R82). -/
def bitXor (x y : Byte) : Byte := x ^^^ y

/-- `and #i8` (R80). -/
def execAndImm (v : Byte) (s : State) : Result State := .next (s.logicStep bitAnd v 2)

/-- `and d9` (R80). -/
def execAndDir (d : DataAddr) (s : State) : Result State :=
  onValue (s.dataRead d) fun m => .next (s.logicStep bitAnd m 2)

/-- `and @Ri` (R80). -/
def execAndInd (i : IndReg) (s : State) : Result State :=
  onValue (s.indValue i) fun m => .next (s.logicStep bitAnd m 1)

/-- `or #i8` (R81). -/
def execOrImm (v : Byte) (s : State) : Result State := .next (s.logicStep bitOr v 2)

/-- `or d9` (R81). -/
def execOrDir (d : DataAddr) (s : State) : Result State :=
  onValue (s.dataRead d) fun m => .next (s.logicStep bitOr m 2)

/-- `or @Ri` (R81). -/
def execOrInd (i : IndReg) (s : State) : Result State :=
  onValue (s.indValue i) fun m => .next (s.logicStep bitOr m 1)

/-- `xor #i8` (R82). -/
def execXorImm (v : Byte) (s : State) : Result State := .next (s.logicStep bitXor v 2)

/-- `xor d9` (R82). -/
def execXorDir (d : DataAddr) (s : State) : Result State :=
  onValue (s.dataRead d) fun m => .next (s.logicStep bitXor m 2)

/-- `xor @Ri` (R82). -/
def execXorInd (i : IndReg) (s : State) : Result State :=
  onValue (s.indValue i) fun m => .next (s.logicStep bitXor m 1)

/-- `a` moved one bit to the left, `low` entering as the least significant bit (R83, R84). -/
def shiftLeftIn (a : Byte) (low : Bool) : Byte := a.extractLsb' 0 7 ++ BitVec.ofBool low

/-- `a` moved one bit to the right, `high` entering as the most significant bit (R85, R86). -/
def shiftRightIn (high : Bool) (a : Byte) : Byte := BitVec.ofBool high ++ a.extractLsb' 1 7

/-- `rol` (R83): no flag. -/
def execRol (s : State) : Result State :=
  .next ((s.setAcc (shiftLeftIn s.acc s.acc.msb)).advance 1)

/-- `rolc` (R84): a rotate of the nine bits `cy`, `acc`. -/
def execRolc (s : State) : Result State :=
  .next (((s.setAcc (shiftLeftIn s.acc s.cy)).setCy s.acc.msb).advance 1)

/-- `ror` (R85): no flag. -/
def execRor (s : State) : Result State :=
  .next ((s.setAcc (shiftRightIn (s.acc.getLsbD 0) s.acc)).advance 1)

/-- `rorc` (R86): a rotate of the nine bits `acc`, `cy`. -/
def execRorc (s : State) : Result State :=
  .next (((s.setAcc (shiftRightIn s.cy s.acc)).setCy (s.acc.getLsbD 0)).advance 1)

end Sys2Proof.Machine
end

