-- ==== Sys2Proof/Machine/Transfer.lean ====
section
/-! DEFINITION. The meanings of `43_data_transfer.md`: ld, st, mov (R100 to R102), ldc (R103), push, pop (R104, R105),
xch (R106), ldf, stf (R107, R108). -/

namespace Sys2Proof.Machine

/-- `DataWrite(ea, v)`, then `pc <- next` (R101, R102). -/
def State.storeStep (s : State) (ea : DataAddr) (v : Byte) (len : Nat) : Result State :=
  onValue (s.dataWrite ea v) fun t => .next (t.advance len)

/-- `acc` and the cell `ea` change places (R106): both old values are read first, `acc` is written last. -/
def State.exchangeStep (s : State) (ea : DataAddr) (len : Nat) : Result State :=
  onValue (s.dataRead ea) fun v =>
    onValue (s.dataWrite ea s.acc) fun t => .next ((t.setAcc v).advance len)

/-- `ld d9` (R100). -/
def execLdDir (d : DataAddr) (s : State) : Result State :=
  onValue (s.dataRead d) fun m => .next ((s.setAcc m).advance 2)

/-- `ld @Ri` (R100). -/
def execLdInd (i : IndReg) (s : State) : Result State :=
  onValue (s.indValue i) fun m => .next ((s.setAcc m).advance 1)

/-- `st d9` (R101). -/
def execStDir (d : DataAddr) (s : State) : Result State := s.storeStep d s.acc 2

/-- `st @Ri` (R101). -/
def execStInd (i : IndReg) (s : State) : Result State :=
  onValue (s.indAddr i) fun ea => s.storeStep ea s.acc 1

/-- `mov #i8, d9` (R102). -/
def execMovDir (v : Byte) (d : DataAddr) (s : State) : Result State := s.storeStep d v 3

/-- `mov #i8, @Ri` (R102). -/
def execMovInd (v : Byte) (i : IndReg) (s : State) : Result State :=
  onValue (s.indAddr i) fun ea => s.storeStep ea v 2

/-- The code address `ldc` reads: `tr` plus the unsigned `acc`, mod 65536 (R103). -/
def State.tableAddr (s : State) : CodeAddr := s.tr + s.acc.setWidth 16

/-- `ldc` (R103): the old `acc` is the index, `acc` the destination. -/
def execLdc (s : State) : Result State :=
  onValue (s.codeRead s.tableAddr) fun v => .next ((s.setAcc v).advance 1)

/-- `push d9` (R104). `push` of `sp` itself has no meaning (U4; log 13). -/
def execPush (d : DataAddr) (s : State) : Result State :=
  if d = Config.addrSp then .refused .stackPointerOperand
  else onValue (s.dataRead d) fun v => .next ((s.push v).advance 2)

/-- `pop d9` (R105): the stack is read, the cell written, and `sp` moves last. `pop` of `sp` itself has no meaning
(U4; log 13). -/
def execPop (d : DataAddr) (s : State) : Result State :=
  if d = Config.addrSp then .refused .stackPointerOperand
  else onValue (s.stackRead s.sp) fun v =>
    onValue (s.dataWrite d v) fun t => .next ({ t with sp := t.sp - 1#8 }.advance 2)

/-- `xch d9` (R106). -/
def execXchDir (d : DataAddr) (s : State) : Result State := s.exchangeStep d 2

/-- `xch @Ri` (R106). -/
def execXchInd (i : IndReg) (s : State) : Result State :=
  onValue (s.indAddr i) fun ea => s.exchangeStep ea 1

/-- `ldf` (R107): the spec gives no address, no destination and no width, and refuses it (log 12). -/
def execLdf (_s : State) : Result State := .refused .flashLoad

/-- `stf` (R108): the spec gives no address, no source and no protocol, and refuses it (log 12). -/
def execStf (_s : State) : Result State := .refused .flashStore

end Sys2Proof.Machine
end

