-- ==== Sys2Proof/Machine/Dispatch.lean ====
section
/-! DEFINITION. One arm for each instruction form, in the order of the opcode table. -/

namespace Sys2Proof.Machine

def exec (i : Instr) (s : State) : Host.Outcome State Fault Refusal :=
  match i with
  | .addImm v => Sys2Proof.Machine.execAddImm v s
  | .addDir d => Sys2Proof.Machine.execAddDir d s
  | .addInd k => Sys2Proof.Machine.execAddInd k s
  | .addcImm v => Sys2Proof.Machine.execAddcImm v s
  | .addcDir d => Sys2Proof.Machine.execAddcDir d s
  | .addcInd k => Sys2Proof.Machine.execAddcInd k s
  | .subImm v => Sys2Proof.Machine.execSubImm v s
  | .subDir d => Sys2Proof.Machine.execSubDir d s
  | .subInd k => Sys2Proof.Machine.execSubInd k s
  | .subcImm v => Sys2Proof.Machine.execSubcImm v s
  | .subcDir d => Sys2Proof.Machine.execSubcDir d s
  | .subcInd k => Sys2Proof.Machine.execSubcInd k s
  | .incDir d => Sys2Proof.Machine.execIncDir d s
  | .incInd k => Sys2Proof.Machine.execIncInd k s
  | .decDir d => Sys2Proof.Machine.execDecDir d s
  | .decInd k => Sys2Proof.Machine.execDecInd k s
  | .mul => Sys2Proof.Machine.execMul s
  | .div => Sys2Proof.Machine.execDiv s
  | .andImm v => Sys2Proof.Machine.execAndImm v s
  | .andDir d => Sys2Proof.Machine.execAndDir d s
  | .andInd k => Sys2Proof.Machine.execAndInd k s
  | .orImm v => Sys2Proof.Machine.execOrImm v s
  | .orDir d => Sys2Proof.Machine.execOrDir d s
  | .orInd k => Sys2Proof.Machine.execOrInd k s
  | .xorImm v => Sys2Proof.Machine.execXorImm v s
  | .xorDir d => Sys2Proof.Machine.execXorDir d s
  | .xorInd k => Sys2Proof.Machine.execXorInd k s
  | .rol => Sys2Proof.Machine.execRol s
  | .rolc => Sys2Proof.Machine.execRolc s
  | .ror => Sys2Proof.Machine.execRor s
  | .rorc => Sys2Proof.Machine.execRorc s
  | .clr1 d n => Sys2Proof.Machine.execClr1 d n s
  | .set1 d n => Sys2Proof.Machine.execSet1 d n s
  | .not1 d n => Sys2Proof.Machine.execNot1 d n s
  | .ldDir d => Sys2Proof.Machine.execLdDir d s
  | .ldInd k => Sys2Proof.Machine.execLdInd k s
  | .stDir d => Sys2Proof.Machine.execStDir d s
  | .stInd k => Sys2Proof.Machine.execStInd k s
  | .movDir v d => Sys2Proof.Machine.execMovDir v d s
  | .movInd v k => Sys2Proof.Machine.execMovInd v k s
  | .ldc => Sys2Proof.Machine.execLdc s
  | .push d => Sys2Proof.Machine.execPush d s
  | .pop d => Sys2Proof.Machine.execPop d s
  | .xchDir d => Sys2Proof.Machine.execXchDir d s
  | .xchInd k => Sys2Proof.Machine.execXchInd k s
  | .ldf => Sys2Proof.Machine.execLdf s
  | .stf => Sys2Proof.Machine.execStf s
  | .jmp a => Sys2Proof.Machine.execJmp a s
  | .jmpf a => Sys2Proof.Machine.execJmpf a s
  | .br r => Sys2Proof.Machine.execBr r s
  | .brf r => Sys2Proof.Machine.execBrf r s
  | .bz r => Sys2Proof.Machine.execBz r s
  | .bnz r => Sys2Proof.Machine.execBnz r s
  | .bp d n r => Sys2Proof.Machine.execBp d n r s
  | .bpc d n r => Sys2Proof.Machine.execBpc d n r s
  | .bn d n r => Sys2Proof.Machine.execBn d n r s
  | .dbnzDir d r => Sys2Proof.Machine.execDbnzDir d r s
  | .dbnzInd k r => Sys2Proof.Machine.execDbnzInd k r s
  | .beImm v r => Sys2Proof.Machine.execBeImm v r s
  | .beDir d r => Sys2Proof.Machine.execBeDir d r s
  | .beInd k v r => Sys2Proof.Machine.execBeInd k v r s
  | .bneImm v r => Sys2Proof.Machine.execBneImm v r s
  | .bneDir d r => Sys2Proof.Machine.execBneDir d r s
  | .bneInd k v r => Sys2Proof.Machine.execBneInd k v r s
  | .call a => Sys2Proof.Machine.execCall a s
  | .callf a => Sys2Proof.Machine.execCallf a s
  | .callr r => Sys2Proof.Machine.execCallr r s
  | .ret => Sys2Proof.Machine.execRet s
  | .reti => Sys2Proof.Machine.execReti s
  | .nop => Sys2Proof.Machine.execNop s

end Sys2Proof.Machine
end

