-- ==== Sys2Proof/Machine/Fetch.lean ====
section
/-! DEFINITION. Fetching an instruction (`20_memory.md` R34, R35, `00_scope.md` R4), and placing its bytes. -/

namespace Sys2Proof.Machine

/-- Byte `k` of an instruction whose first byte is `b0`: read from the code space when the instruction has it; a byte
beyond its length is not read. -/
def State.operandByte (s : State) (b0 : Byte) (k : Nat) : Result Byte :=
  if k < instrLength b0 then s.codeRead (s.pc + BitVec.ofNat 16 k) else .next 0#8

/-- Fetch and decode the instruction at `pc`: one to three code reads, addresses mod 65536. -/
def State.fetch (s : State) : Result Instr :=
  onValue (s.codeRead s.pc) fun b0 =>
    onValue (s.operandByte b0 1) fun b1 =>
      onValue (s.operandByte b0 2) fun b2 => .next (decode b0 b1 b2)

/-- A code memory with bytes placed at ascending addresses from `a`, mod 65536. -/
def placeBytes : Memory → CodeAddr → List Byte → Memory
  | m, _, [] => m
  | m, a, v :: rest => placeBytes (Memory.write m a.toNat v) (a + 1#16) rest

/-- Load an instruction from outside so that the next step fetches and runs it (log 2): its bytes stand at `pc`, and
the interrupt agent has no move left. -/
def State.loadAtPc (s : State) (bytes : List Byte) : State :=
  { s with code := placeBytes s.code s.pc bytes, agent := [] }

end Sys2Proof.Machine
end

