-- ==== Sys2Proof/Machine/Step.lean ====
section
/-! DEFINITION. One step of the machine (`00_scope.md` R5, `60_exceptions.md` R143). -/

namespace Sys2Proof.Machine

/-- One step: the interrupt agent's move at the boundary, then either the delivery of an interrupt, or the fetch and the
execution of the instruction at `pc`, after which the next draw of a free value is a new one (log 8). -/
def step (s : State) : Host.Outcome State Fault Refusal :=
  match s.boundary with
  | .deliver t => .next t
  | .run t => onValue t.fetch fun i => onValue (exec i t) fun u => .next u.tick

/-- The state with an opcode-table word's instruction placed where the next step fetches (log 2). -/
def State.withFetchWord (s : State) (nbits w : Nat) : State := s.loadAtPc (tableBytes nbits w)

end Sys2Proof.Machine
end

