-- ==== Sys2Proof/WellFormed.lean ====
section
/-! DEFINITION. Well-formedness: which instructions the spec gives a meaning, and which targets an assembler may encode.
The operand types are exactly the field widths of `30_encoding.md` R53, so no operand can be out of range; what is left
to check is said here. Every encoding decodes, well-formed or not (R57). -/

namespace Sys2Proof

/-- The direct data address an instruction names, if it has a `d9` operand. -/
def Instr.directAddr : Instr → Option DataAddr
  | .addDir d | .addcDir d | .subDir d | .subcDir d | .incDir d | .decDir d | .andDir d | .orDir d | .xorDir d
  | .clr1 d _ | .set1 d _ | .not1 d _ | .ldDir d | .stDir d | .movDir _ d | .push d | .pop d | .xchDir d
  | .bp d _ _ | .bpc d _ _ | .bn d _ _ | .dbnzDir d _ | .beDir d _ | .bneDir d _ => some d
  | .addImm _ | .addInd _ | .addcImm _ | .addcInd _ | .subImm _ | .subInd _ | .subcImm _ | .subcInd _ | .incInd _
  | .decInd _ | .mul | .div | .andImm _ | .andInd _ | .orImm _ | .orInd _ | .xorImm _ | .xorInd _ | .rol | .rolc
  | .ror | .rorc | .ldInd _ | .stInd _ | .movInd _ _ | .ldc | .xchInd _ | .ldf | .stf | .jmp _ | .jmpf _ | .br _
  | .brf _ | .bz _ | .bnz _ | .dbnzInd _ _ | .beImm _ _ | .beInd _ _ _ | .bneImm _ _ | .bneInd _ _ _ | .call _
  | .callf _ | .callr _ | .ret | .reti | .nop => none

/-- A data address that the spec describes: RAM or a named register, 0x000..0x106 (`20_memory.md` R38, R39). -/
def describedAddr (d : DataAddr) : Bool := d ≤ Config.addrSp

/-- Check 1: a direct operand lies outside the device region (`20_memory.md` R38). -/
def Instr.directOk (i : Instr) : Bool := i.directAddr.all describedAddr

/-- Check 2: the instruction is not one of the two flash instructions, to which the spec gives no meaning
(`43_data_transfer.md` R107, R108). -/
def Instr.flashOk (i : Instr) : Bool := i ≠ .ldf && i ≠ .stf

/-- Check 3: the instruction does not push or pop `sp` itself, to which the spec gives no meaning
(`43_data_transfer.md` R104, R105). -/
def Instr.stackOk (i : Instr) : Bool := i ≠ .push Config.addrSp && i ≠ .pop Config.addrSp

/-- An instruction the spec gives a meaning under the default device policy, as far as its text alone can tell
(the target of `@Ri` is known only when it runs). -/
def Instr.wellFormed (i : Instr) : Bool := i.directOk && i.flashOk && i.stackOk

/-- The assembler's check for `jmp a12` and `call a12`: the high 4 bits of the target match those of the address of the
following instruction (`30_encoding.md` R65). The machine never checks it. -/
def pageOk (next target : CodeAddr) : Bool := target.extractLsb' 12 4 == next.extractLsb' 12 4

/-- The operand an assembler encodes for `jmp` or `call`: the low 12 bits of a target in the page of `next`
(`30_encoding.md` R65). -/
def pageOperand (next target : CodeAddr) : Option PageAddr :=
  if pageOk next target then some (target.extractLsb' 0 12) else none

/-- The assembler's check for an `r8` operand: the target lies in `next - 128 .. next + 127`
(`44_jump_branch.md` R110). -/
def rel8Ok (next target : CodeAddr) : Bool :=
  ((target - next).extractLsb' 0 8).signExtend 16 == target - next

/-- The operand an assembler encodes for an `r8` target (`30_encoding.md` R66, `44_jump_branch.md` R110). -/
def rel8Operand (next target : CodeAddr) : Option Byte :=
  if rel8Ok next target then some ((target - next).extractLsb' 0 8) else none

/-- The operand an assembler encodes for an `r16` target `T` of an instruction at `pc`: `(T - pc - 2) mod 65536`
(`44_jump_branch.md` R111). -/
def rel16Operand (pc target : CodeAddr) : CodeAddr := target - pc - 2#16

end Sys2Proof
end

