-- ==== Sys2Proof/Safety.lean ====
section
/-! DEFINITION. The terms claims use: the invariant of the state, what an instruction stores to and which registers and
flags it may change, and the run of a program to its end. -/

namespace Sys2Proof.Machine

/-! ## The invariant -/

/-- The state is in canonical form: RAM has two banks of 256 cells, the code space 65536 cells, each memory lists its
cells with strictly rising keys, and the bits of `psw` that hold nothing are 0 (`10_state.md` R10, R14, R19, R24). -/
def State.wf (s : State) : Bool :=
  Memory.wf (Config.ramBanks * Config.bankSize) s.ram && Memory.wf Config.codeSize s.code
    && s.psw &&& ~~~Config.pswFunctional == 0#8

end Sys2Proof.Machine

namespace Sys2Proof

open Sys2Proof.Machine

/-! ## What an instruction changes -/

/-- The data address an instruction writes to with `DataWrite`, if it does (`20_memory.md` R37): the address its
meaning uses. `bpc` writes only when it finds the bit set. -/
def Instr.storeAddr (i : Instr) (s : State) : Option DataAddr :=
  let direct (d : DataAddr) : Option DataAddr := some d
  let indirect (k : IndReg) : Option DataAddr :=
    match s.indAddr k with
    | .next ea => some ea
    | .fault _ => none
    | .refused _ => none
  match i with
  | .incDir d | .decDir d | .clr1 d _ | .set1 d _ | .not1 d _ | .stDir d | .movDir _ d | .pop d | .xchDir d
  | .bpc d _ _ | .dbnzDir d _ => direct d
  | .incInd k | .decInd k | .stInd k | .movInd _ k | .xchInd k | .dbnzInd k _ => indirect k
  | .addImm _ | .addDir _ | .addInd _ | .addcImm _ | .addcDir _ | .addcInd _ | .subImm _ | .subDir _ | .subInd _
  | .subcImm _ | .subcDir _ | .subcInd _ | .mul | .div | .andImm _ | .andDir _ | .andInd _ | .orImm _ | .orDir _
  | .orInd _ | .xorImm _ | .xorDir _ | .xorInd _ | .rol | .rolc | .ror | .rorc | .ldDir _ | .ldInd _ | .ldc | .push _
  | .ldf | .stf | .jmp _ | .jmpf _ | .br _ | .brf _ | .bz _ | .bnz _ | .bp _ _ _ | .bn _ _ _ | .beImm _ _ | .beDir _ _
  | .beInd _ _ _ | .bneImm _ _ | .bneDir _ _ | .bneInd _ _ _ | .call _ | .callf _ | .callr _ | .ret | .reti
  | .nop => none

/-- How many bytes an instruction pushes (`20_memory.md` R37). -/
def Instr.pushes (i : Instr) : Nat :=
  match i with
  | .push _ => 1
  | .call _ | .callf _ | .callr _ => 2
  | .addImm _ | .addDir _ | .addInd _ | .addcImm _ | .addcDir _ | .addcInd _ | .subImm _ | .subDir _ | .subInd _
  | .subcImm _ | .subcDir _ | .subcInd _ | .incDir _ | .incInd _ | .decDir _ | .decInd _ | .mul | .div | .andImm _
  | .andDir _ | .andInd _ | .orImm _ | .orDir _ | .orInd _ | .xorImm _ | .xorDir _ | .xorInd _ | .rol | .rolc | .ror
  | .rorc | .clr1 _ _ | .set1 _ _ | .not1 _ _ | .ldDir _ | .ldInd _ | .stDir _ | .stInd _ | .movDir _ _ | .movInd _ _
  | .ldc | .pop _ | .xchDir _ | .xchInd _ | .ldf | .stf | .jmp _ | .jmpf _ | .br _ | .brf _ | .bz _ | .bnz _
  | .bp _ _ _ | .bpc _ _ _ | .bn _ _ _ | .dbnzDir _ _ | .dbnzInd _ _ | .beImm _ _ | .beDir _ _ | .beInd _ _ _
  | .bneImm _ _ | .bneDir _ _ | .bneInd _ _ _ | .ret | .reti | .nop => 0

/-- How many bytes an instruction pops (`20_memory.md` R37). -/
def Instr.pops (i : Instr) : Nat :=
  match i with
  | .pop _ => 1
  | .ret | .reti => 2
  | .addImm _ | .addDir _ | .addInd _ | .addcImm _ | .addcDir _ | .addcInd _ | .subImm _ | .subDir _ | .subInd _
  | .subcImm _ | .subcDir _ | .subcInd _ | .incDir _ | .incInd _ | .decDir _ | .decInd _ | .mul | .div | .andImm _
  | .andDir _ | .andInd _ | .orImm _ | .orDir _ | .orInd _ | .xorImm _ | .xorDir _ | .xorInd _ | .rol | .rolc | .ror
  | .rorc | .clr1 _ _ | .set1 _ _ | .not1 _ _ | .ldDir _ | .ldInd _ | .stDir _ | .stInd _ | .movDir _ _ | .movInd _ _
  | .ldc | .push _ | .xchDir _ | .xchInd _ | .ldf | .stf | .jmp _ | .jmpf _ | .br _ | .brf _ | .bz _ | .bnz _
  | .bp _ _ _ | .bpc _ _ _ | .bn _ _ _ | .dbnzDir _ _ | .dbnzInd _ _ | .beImm _ _ | .beDir _ _ | .beInd _ _ _
  | .bneImm _ _ | .bneDir _ _ | .bneInd _ _ _ | .call _ | .callf _ | .callr _ | .nop => 0

/-- The keys of the RAM cells an instruction stores to: the cell it writes as data, in the bank that `psw` selects before
it runs, and the cells of bank 0 it pushes to. -/
def Instr.storedKeys (i : Instr) (s : State) : List Nat :=
  let data :=
    match i.storeAddr s with
    | none => []
    | some a =>
      match cellAt a with
      | .ram cell => [ramKey s.ramBank cell]
      | .reg _ => []
      | .device => []
  data ++ (List.range i.pushes).map fun k => ramKey Config.stackBank (s.sp + BitVec.ofNat 8 (k + 1))

/-- The instructions whose implicit destination is `acc` (`10_state.md` R11). -/
def Instr.writesAcc (i : Instr) : Bool :=
  match i with
  | .addImm _ | .addDir _ | .addInd _ | .addcImm _ | .addcDir _ | .addcInd _ | .subImm _ | .subDir _ | .subInd _
  | .subcImm _ | .subcDir _ | .subcInd _ | .mul | .div | .andImm _ | .andDir _ | .andInd _ | .orImm _ | .orDir _
  | .orInd _ | .xorImm _ | .xorDir _ | .xorInd _ | .rol | .rolc | .ror | .rorc | .ldDir _ | .ldInd _ | .ldc
  | .xchDir _ | .xchInd _ => true
  | .incDir _ | .incInd _ | .decDir _ | .decInd _ | .clr1 _ _ | .set1 _ _ | .not1 _ _ | .stDir _ | .stInd _
  | .movDir _ _ | .movInd _ _ | .push _ | .pop _ | .ldf | .stf | .jmp _ | .jmpf _ | .br _ | .brf _ | .bz _ | .bnz _
  | .bp _ _ _ | .bpc _ _ _ | .bn _ _ _ | .dbnzDir _ _ | .dbnzInd _ _ | .beImm _ _ | .beDir _ _ | .beInd _ _ _
  | .bneImm _ _ | .bneDir _ _ | .bneInd _ _ _ | .call _ | .callf _ | .callr _ | .ret | .reti | .nop => false

/-- The bits of `psw` an instruction writes as a side effect: `cy` 7, `ac` 6, `ov` 2 (`10_state.md` R25). -/
def Instr.flagBits (i : Instr) : List Nat :=
  match i with
  | .addImm _ | .addDir _ | .addInd _ | .addcImm _ | .addcDir _ | .addcInd _ | .subImm _ | .subDir _ | .subInd _
  | .subcImm _ | .subcDir _ | .subcInd _ => [7, 6, 2]
  | .mul | .div => [7, 2]
  | .rolc | .rorc | .beImm _ _ | .beDir _ _ | .beInd _ _ _ | .bneImm _ _ | .bneDir _ _ | .bneInd _ _ _ => [7]
  | .incDir _ | .incInd _ | .decDir _ | .decInd _ | .andImm _ | .andDir _ | .andInd _ | .orImm _ | .orDir _ | .orInd _
  | .xorImm _ | .xorDir _ | .xorInd _ | .rol | .ror | .clr1 _ _ | .set1 _ _ | .not1 _ _ | .ldDir _ | .ldInd _
  | .stDir _ | .stInd _ | .movDir _ _ | .movInd _ _ | .ldc | .push _ | .pop _ | .xchDir _ | .xchInd _ | .ldf | .stf
  | .jmp _ | .jmpf _ | .br _ | .brf _ | .bz _ | .bnz _ | .bp _ _ _ | .bpc _ _ _ | .bn _ _ _ | .dbnzDir _ _
  | .dbnzInd _ _ | .call _ | .callf _ | .callr _ | .ret | .reti | .nop => []

/-- The register number of an `@Ri` operand, if the instruction has one. -/
def Instr.indReg (i : Instr) : Option IndReg :=
  match i with
  | .addInd k | .addcInd k | .subInd k | .subcInd k | .incInd k | .decInd k | .andInd k | .orInd k | .xorInd k
  | .ldInd k | .stInd k | .movInd _ k | .xchInd k | .dbnzInd k _ | .beInd k _ _ | .bneInd k _ _ => some k
  | .addImm _ | .addDir _ | .addcImm _ | .addcDir _ | .subImm _ | .subDir _ | .subcImm _ | .subcDir _ | .incDir _
  | .decDir _ | .mul | .div | .andImm _ | .andDir _ | .orImm _ | .orDir _ | .xorImm _ | .xorDir _ | .rol | .rolc | .ror
  | .rorc | .clr1 _ _ | .set1 _ _ | .not1 _ _ | .ldDir _ | .stDir _ | .movDir _ _ | .ldc | .push _ | .pop _
  | .xchDir _ | .ldf | .stf | .jmp _ | .jmpf _ | .br _ | .brf _ | .bz _ | .bnz _ | .bp _ _ _ | .bpc _ _ _ | .bn _ _ _
  | .dbnzDir _ _ | .beImm _ _ | .beDir _ _ | .bneImm _ _ | .bneDir _ _ | .call _ | .callf _ | .callr _ | .ret | .reti
  | .nop => none

end Sys2Proof

namespace Sys2Proof.Machine

/-! ## Flags and operands, as claims speak of them -/

/-- `new` differs from `old` only in the listed bits. -/
def sameBitsBut (bits : List Nat) (old new : Byte) : Prop :=
  ∀ n, n ∉ bits → new.getLsbD n = old.getLsbD n

/-- What a claim says of an instruction with the three source operand forms `#i8`, `d9`, `@Ri`, in every state where
the operand has a value: `Post m len outcome`, with `m` the operand and `len` the length of the form. -/
def forEachSource (imm : Byte → Instr) (dir : DataAddr → Instr) (ind : IndReg → Instr) (s : State)
    (Post : Byte → Nat → Host.Outcome State Fault Refusal → Prop) : Prop :=
  (∀ v, Post v 2 (exec (imm v) s))
    ∧ (∀ d m, s.dataRead d = .next m → Post m 2 (exec (dir d) s))
    ∧ (∀ k ea m, s.indAddr k = .next ea → s.dataRead ea = .next m → Post m 1 (exec (ind k) s))

/-- What a claim says of an instruction with the two cell operand forms `d9`, `@Ri`, for every state and the address
that the operand denotes in it: `Post ea len outcome`. -/
def forEachCell (dir : DataAddr → Instr) (ind : IndReg → Instr) (dirLen indLen : Nat) (s : State)
    (Post : DataAddr → Nat → Host.Outcome State Fault Refusal → Prop) : Prop :=
  (∀ d, Post d dirLen (exec (dir d) s)) ∧ (∀ k ea, s.indAddr k = .next ea → Post ea indLen (exec (ind k) s))

/-! ## The end of a run -/

/-- Where a run stands (`70_reset_and_hazards.md` R165). -/
inductive RunEnd
  /-- `pc` is `halt_pc` at an instruction boundary: the run is over and this is its final state. -/
  | over (s : State)
  /-- The steps given are used up. -/
  | unfinished (s : State)
  /-- A step ended in a fault. -/
  | fault (r : Fault)
  /-- A step was refused. -/
  | refused (r : Refusal)
deriving DecidableEq, Repr

/-- Run for at most `fuel` steps, to `halt_pc`; the instruction there is not executed (`70_reset_and_hazards.md` R165;
log 20). -/
def runToHalt (haltPc : CodeAddr) : Nat → State → RunEnd
  | fuel, s =>
    if s.pc = haltPc then .over s
    else
      match fuel with
      | 0 => .unfinished s
      | n + 1 =>
        match step s with
        | .next t => runToHalt haltPc n t
        | .fault r => .fault r
        | .refused r => .refused r

end Sys2Proof.Machine
end

