-- ==== Sys2Proof/Certificates/Slice0/Obligations.lean ====
section
/-! DEFINITION. The statements for the provers. Where a statement rests on a decision of the spec (`D<n>`, a choice that
`92_eei_decisions.md` marks as the spec's own) or on a choice of the model (a log entry), its docstring says so.

The words of the statements: `s.dataRead a`, `s.dataWrite a v`, `s.indAddr i`, `s.stackRead p`, `s.codeRead a` are the access
primitives of `20_memory.md`, which have statements of their own; `forEachSource` and `forEachCell` (`Safety.lean`) range
over the operand forms of an instruction; `sameBitsBut` says which bits of `psw` may differ. A statement that answers
`.next { s with … }` says that every register, flag, memory and parameter it does not name is unchanged. -/

namespace Sys2Proof.Claims

open Sys2Proof.Machine

/-- The first-byte column of `30_encoding.md` R55: (match, mask) of the 70 forms in the order of the rows. -/
def firstByteRows : List (Byte × Byte) :=
  ([(0x81, 0xFF), (0x82, 0xFE), (0x84, 0xFC), (0x91, 0xFF), (0x92, 0xFE), (0x94, 0xFC), (0xA1, 0xFF), (0xA2, 0xFE),
    (0xA4, 0xFC), (0xB1, 0xFF), (0xB2, 0xFE), (0xB4, 0xFC), (0x62, 0xFE), (0x64, 0xFC), (0x72, 0xFE), (0x74, 0xFC),
    (0x30, 0xFF), (0x40, 0xFF), (0xE1, 0xFF), (0xE2, 0xFE), (0xE4, 0xFC), (0xD1, 0xFF), (0xD2, 0xFE), (0xD4, 0xFC),
    (0xF1, 0xFF), (0xF2, 0xFE), (0xF4, 0xFC), (0xE0, 0xFF), (0xF0, 0xFF), (0xC0, 0xFF), (0xD0, 0xFF), (0xC8, 0xE8),
    (0xE8, 0xE8), (0xA8, 0xE8), (0x02, 0xFE)] : List (Byte × Byte))
  ++ [(0x04, 0xFC), (0x12, 0xFE), (0x14, 0xFC), (0x22, 0xFE), (0x24, 0xFC), (0xC1, 0xFF), (0x60, 0xFE), (0x70, 0xFE),
    (0xC2, 0xFE), (0xC4, 0xFC), (0x50, 0xFF), (0x51, 0xFF), (0x28, 0xE8), (0x21, 0xFF), (0x01, 0xFF), (0x11, 0xFF),
    (0x80, 0xFF), (0x90, 0xFF), (0x68, 0xE8), (0x48, 0xE8), (0x88, 0xE8), (0x52, 0xFE), (0x54, 0xFC), (0x31, 0xFF),
    (0x32, 0xFE), (0x34, 0xFC), (0x41, 0xFF), (0x42, 0xFE), (0x44, 0xFC), (0x08, 0xE8), (0x20, 0xFF), (0x10, 0xFF),
    (0xA0, 0xFF), (0xB0, 0xFF), (0x00, 0xFF)]

/-- The first byte `op + x`, as a number, and the bytes after it. -/
def bytesAre (i : Instr) (first : Nat) (rest : List Byte) : Prop := encode i = BitVec.ofNat 8 first :: rest

/-- The encodings of an instruction with the operand forms `#i8`, `d9`, `@Ri`, from the three first-byte matches. -/
def sourceBytes (imm : Byte → Instr) (dir : DataAddr → Instr) (ind : IndReg → Instr) (immOp dirOp indOp : Nat) : Prop :=
  (∀ v, bytesAre (imm v) immOp [v])
    ∧ (∀ d, bytesAre (dir d) (dirOp + d.toNat / 256) [BitVec.ofNat 8 d.toNat])
    ∧ (∀ k, bytesAre (ind k) (indOp + k.toNat) [])

/-- The encodings of an instruction with the operand forms `d9`, `@Ri`. -/
def cellBytes (dir : DataAddr → Instr) (ind : IndReg → Instr) (dirOp indOp : Nat) : Prop :=
  (∀ d, bytesAre (dir d) (dirOp + d.toNat / 256) [BitVec.ofNat 8 d.toNat])
    ∧ (∀ k, bytesAre (ind k) (indOp + k.toNat) [])

/-- The first byte and the address byte of an instruction with a `d9, b3` operand pair, and the bytes after them. -/
def bitBytes (i : Instr) (op : Nat) (d : DataAddr) (n : BitNum) (rest : List Byte) : Prop :=
  bytesAre i (op + 16 * (d.toNat / 256) + n.toNat) (BitVec.ofNat 8 d.toNat :: rest)

/-- A data address that a write may go to: RAM, a named register, or any address under the device oracle. -/
def writable (s : State) (a : DataAddr) : Prop := a.toNat ≤ 262 ∨ s.devicePolicy = .oracle

/-- The key of a cell of the RAM bank that `psw[1]` selects. -/
def currentKey (s : State) (cell : Nat) : Nat := 256 * (s.psw.getLsbD 1).toNat + cell

/-- The bytes stand in the code space from `pc` on, addresses mod 65536. -/
def codeHolds (s : State) (bytes : List Byte) : Prop :=
  ∀ k v, bytes[k]? = some v → s.codeRead (s.pc + BitVec.ofNat 16 k) = .next v

/-- The outcome of `add` and `addc` of `m` with carry-in `k` (0 or 1): the sum mod 256 in `acc`, the carries out of bits 7
and 3 in `cy` and `ac`, and in `ov` whether the exact signed sum lies outside -128..127. -/
def addOutcome (s : State) (k : Nat) (m : Byte) (len : Nat) (o : Host.Outcome State Fault Refusal) : Prop :=
  ∃ p : Byte,
    o = .next { s with acc := BitVec.ofNat 8 (s.acc.toNat + m.toNat + k), psw := p, pc := s.pc + BitVec.ofNat 16 len }
      ∧ p.getLsbD 7 = decide (256 ≤ s.acc.toNat + m.toNat + k)
      ∧ p.getLsbD 6 = decide (16 ≤ s.acc.toNat % 16 + m.toNat % 16 + k)
      ∧ p.getLsbD 2 = decide (s.acc.toInt + m.toInt + k < -128 ∨ 127 < s.acc.toInt + m.toInt + k)
      ∧ sameBitsBut [7, 6, 2] s.psw p

/-- The outcome of `sub` and `subc` of `m` with borrow-in `k` (0 or 1). -/
def subOutcome (s : State) (k : Nat) (m : Byte) (len : Nat) (o : Host.Outcome State Fault Refusal) : Prop :=
  ∃ p : Byte,
    o = .next { s with acc := BitVec.ofNat 8 (s.acc.toNat + 512 - m.toNat - k), psw := p, pc := s.pc + BitVec.ofNat 16 len }
      ∧ p.getLsbD 7 = decide (s.acc.toNat < m.toNat + k)
      ∧ p.getLsbD 6 = decide (s.acc.toNat % 16 < m.toNat % 16 + k)
      ∧ p.getLsbD 2 = decide (s.acc.toInt - m.toInt - k < -128 ∨ 127 < s.acc.toInt - m.toInt - k)
      ∧ sameBitsBut [7, 6, 2] s.psw p

/-- The outcome of an instruction that puts a result into `acc`, bit `n` of it `f` of the bits `n` of `acc` and `m`, and
changes nothing else but `pc`. -/
def bitwiseOutcome (f : Bool → Bool → Bool) (s : State) (m : Byte) (len : Nat) (o : Host.Outcome State Fault Refusal) : Prop :=
  ∃ r : Byte, o = .next { s with acc := r, pc := s.pc + BitVec.ofNat 16 len }
    ∧ ∀ n, n < 8 → r.getLsbD n = f (s.acc.getLsbD n) (m.getLsbD n)

/-- The outcome of an instruction that reads the cell `ea`, writes back its value plus `x` mod 256, and goes on at `next`
or, where `branch` says so of the value written, at `rel8(next, r)`. -/
def stepCellOutcome (s : State) (x : Nat) (branch : Byte → Bool) (r : Byte) (ea : DataAddr) (len : Nat)
    (o : Host.Outcome State Fault Refusal) : Prop :=
  ∀ v, s.dataRead ea = .next v →
    ∃ u, s.dataWrite ea (BitVec.ofNat 8 (v.toNat + x)) = .next u
      ∧ o = .next { u with pc := if branch (BitVec.ofNat 8 (v.toNat + x)) then rel8 (s.pc + BitVec.ofNat 16 len) r
                                  else s.pc + BitVec.ofNat 16 len }

/-- The outcome of a compare of `x` with `y` that branches when their equality is `wanted`. -/
def compareOutcome (s : State) (x y : Byte) (wanted : Bool) (r : Byte) (o : Host.Outcome State Fault Refusal) : Prop :=
  ∃ p : Byte,
    o = .next { s with psw := p, pc := if decide (x = y) = wanted then rel8 (s.pc + 3#16) r else s.pc + 3#16 }
      ∧ p.getLsbD 7 = decide (x.toNat < y.toNat) ∧ sameBitsBut [7] s.psw p

/-- The RAM of `t` is that of `s` with the two bytes of `w` pushed at `sp + 1` (low byte) and `sp + 2` (high byte) of the
stack's bank: every other cell reads as before. -/
def pushedWord (s t : State) (w : CodeAddr) : Prop :=
  ∀ key, Memory.read t.ram key =
    if key = ramKey Config.stackBank (s.sp + 2#8) then some (BitVec.ofNat 8 (w.toNat / 256))
    else if key = ramKey Config.stackBank (s.sp + 1#8) then some (BitVec.ofNat 8 w.toNat)
    else Memory.read s.ram key

/-- The read by which an instruction faults: of its direct operand, of its pointer cell, of the cell its `@Ri` denotes (`st`,
`mov` and `pop` do not read the cell they write), of the stack cell at `sp`, or of the one below it. -/
def faultingRead (i : Instr) (s : State) (f : Fault) : Prop :=
  (∃ d, i.directAddr = some d ∧ i ≠ .stDir d ∧ (∀ v, i ≠ .movDir v d) ∧ i ≠ .pop d ∧ s.dataRead d = .fault f)
    ∨ (∃ k, i.indReg = some k ∧ s.indAddr k = .fault f)
    ∨ (∃ k ea, i.indReg = some k ∧ s.indAddr k = .next ea ∧ i ≠ .stInd k ∧ (∀ v, i ≠ .movInd v k) ∧ s.dataRead ea = .fault f)
    ∨ ((i = .ret ∨ i = .reti ∨ ∃ d, d ≠ 0x106#9 ∧ i = .pop d) ∧ s.stackRead s.sp = .fault f)
    ∨ ((i = .ret ∨ i = .reti) ∧ (∃ v, s.stackRead s.sp = .next v) ∧ s.stackRead (s.sp - 1#8) = .fault f)

/-- The data address that an instruction's direct or indirect operand names. -/
def operandAddr (i : Instr) (s : State) (a : DataAddr) : Prop :=
  i.directAddr = some a ∨ ∃ k, i.indReg = some k ∧ s.indAddr k = .next a

/-- The outcome of a call of `target` by an instruction of `len` bytes. -/
def callOutcome (s : State) (len : Nat) (target : CodeAddr) (o : Host.Outcome State Fault Refusal) : Prop :=
  ∃ t, o = .next t ∧ t = { s with sp := s.sp + 2#8, pc := target, ram := t.ram }
    ∧ pushedWord s t (s.pc + BitVec.ofNat 16 len)

end Sys2Proof.Claims

open Sys2Proof Sys2Proof.Machine Sys2Proof.Claims

/-! ## Encoding (`30_encoding.md`) -/

/-- Decoding the bytes of an instruction, whatever stands after them, gives the instruction and the bytes after it. -/
def Obligations.DecodingAnEncodedInstructionReturnsIt : Prop :=
  ∀ (i : Instr) (rest : List Byte), decodeBytes (encode i ++ rest) = .ok (i, rest)

/-- Encoding the instruction that three bytes decode to gives back as many of the bytes as its length says: each byte
sequence has one meaning, and no bit of it is dropped. -/
def Obligations.EncodingADecodedInstructionReturnsItsBytes : Prop :=
  ∀ b0 b1 b2 : Byte, encode (decode b0 b1 b2) = [b0, b1, b2].take (instrLength b0)

/-- A few words written out from the spec's bit patterns decode to the instructions they stand for. -/
def Obligations.DecoderReadsWordsOfTheSpec : Prop :=
  decodeBytes [0x83#8, 0x45#8] = .ok (.addDir 0x145#9, [])
    ∧ decodeBytes [0x86#8] = .ok (.addInd 2#2, [])
    ∧ decodeBytes [0xDB#8, 0x45#8] = .ok (.clr1 0x145#9 3#3, [])
    ∧ decodeBytes [0x23#8, 0x00#8, 0x2A#8] = .ok (.movDir 0x2A#8 0x100#9, [])
    ∧ decodeBytes [0x39#8, 0x23#8] = .ok (.jmp 0x923#12, [])
    ∧ decodeBytes [0x20#8, 0x12#8, 0x34#8] = .ok (.callf 0x1234#16, [])
    ∧ decodeBytes [0x10#8, 0xFD#8, 0x00#8] = .ok (.callr 0x00FD#16, [])
    ∧ decodeBytes [0x44#8, 0x10#8, 0xFD#8] = .ok (.bneInd 0#2 0x10#8 0xFD#8, [])
    ∧ decodeBytes [0x44#8, 0x10#8] = .error .truncated

/-- R57. The 70 patterns assign every first byte to exactly one form, operand bytes take any value, and every sequence of
bytes long enough decodes to an instruction that begins with that first byte. -/
def Obligations.EveryFirstByteBelongsToExactlyOneForm : Prop :=
  firstByteRows.length = 70
    ∧ (∀ b0 : Byte, (firstByteRows.filter fun row => b0 &&& row.2 == row.1).length = 1)
    ∧ ∀ (b0 b1 b2 : Byte) (rest : List Byte), ∃ i after,
        decodeBytes (b0 :: b1 :: b2 :: rest) = .ok (i, after) ∧ (encode i).head? = some b0

/-- R52, R55. The bytes of all 70 forms, as numbers: the first-byte match of the opcode map plus the operand bits the format
puts into it, then the operand bytes in the order of the format. -/
def Obligations.EncodingsFollowTheOpcodeMap : Prop :=
  sourceBytes .addImm .addDir .addInd 0x81 0x82 0x84 ∧ sourceBytes .addcImm .addcDir .addcInd 0x91 0x92 0x94
    ∧ sourceBytes .subImm .subDir .subInd 0xA1 0xA2 0xA4 ∧ sourceBytes .subcImm .subcDir .subcInd 0xB1 0xB2 0xB4
    ∧ sourceBytes .andImm .andDir .andInd 0xE1 0xE2 0xE4 ∧ sourceBytes .orImm .orDir .orInd 0xD1 0xD2 0xD4
    ∧ sourceBytes .xorImm .xorDir .xorInd 0xF1 0xF2 0xF4
    ∧ cellBytes .incDir .incInd 0x62 0x64 ∧ cellBytes .decDir .decInd 0x72 0x74 ∧ cellBytes .ldDir .ldInd 0x02 0x04
    ∧ cellBytes .stDir .stInd 0x12 0x14 ∧ cellBytes .xchDir .xchInd 0xC2 0xC4
    ∧ bytesAre .mul 0x30 [] ∧ bytesAre .div 0x40 [] ∧ bytesAre .rol 0xE0 [] ∧ bytesAre .rolc 0xF0 []
    ∧ bytesAre .ror 0xC0 [] ∧ bytesAre .rorc 0xD0 [] ∧ bytesAre .ldc 0xC1 [] ∧ bytesAre .ldf 0x50 []
    ∧ bytesAre .stf 0x51 [] ∧ bytesAre .ret 0xA0 [] ∧ bytesAre .reti 0xB0 [] ∧ bytesAre .nop 0x00 []
    ∧ (∀ d n, bitBytes (.clr1 d n) 0xC8 d n [] ∧ bitBytes (.set1 d n) 0xE8 d n [] ∧ bitBytes (.not1 d n) 0xA8 d n [])
    ∧ (∀ d n r, bitBytes (.bp d n r) 0x68 d n [r] ∧ bitBytes (.bpc d n r) 0x48 d n [r] ∧ bitBytes (.bn d n r) 0x88 d n [r])
    ∧ (∀ d : DataAddr, bytesAre (.push d) (0x60 + d.toNat / 256) [BitVec.ofNat 8 d.toNat]
        ∧ bytesAre (.pop d) (0x70 + d.toNat / 256) [BitVec.ofNat 8 d.toNat])
    ∧ (∀ (v : Byte) (d : DataAddr), bytesAre (.movDir v d) (0x22 + d.toNat / 256) [BitVec.ofNat 8 d.toNat, v])
    ∧ (∀ (v : Byte) (k : IndReg), bytesAre (.movInd v k) (0x24 + k.toNat) [v])
    ∧ (∀ (d : DataAddr) (r : Byte), bytesAre (.dbnzDir d r) (0x52 + d.toNat / 256) [BitVec.ofNat 8 d.toNat, r]
        ∧ bytesAre (.beDir d r) (0x32 + d.toNat / 256) [BitVec.ofNat 8 d.toNat, r]
        ∧ bytesAre (.bneDir d r) (0x42 + d.toNat / 256) [BitVec.ofNat 8 d.toNat, r])
    ∧ (∀ (k : IndReg) (r : Byte), bytesAre (.dbnzInd k r) (0x54 + k.toNat) [r])
    ∧ (∀ v r : Byte, bytesAre (.beImm v r) 0x31 [v, r] ∧ bytesAre (.bneImm v r) 0x41 [v, r])
    ∧ (∀ (k : IndReg) (v r : Byte), bytesAre (.beInd k v r) (0x34 + k.toNat) [v, r]
        ∧ bytesAre (.bneInd k v r) (0x44 + k.toNat) [v, r])
    ∧ (∀ r : Byte, bytesAre (.br r) 0x01 [r] ∧ bytesAre (.bz r) 0x80 [r] ∧ bytesAre (.bnz r) 0x90 [r])
    ∧ (∀ a : PageAddr, bytesAre (.jmp a) (0x28 + 16 * (a.toNat / 2048) + a.toNat / 256 % 8) [BitVec.ofNat 8 a.toNat]
        ∧ bytesAre (.call a) (0x08 + 16 * (a.toNat / 2048) + a.toNat / 256 % 8) [BitVec.ofNat 8 a.toNat])
    ∧ (∀ a : CodeAddr, bytesAre (.jmpf a) 0x21 [BitVec.ofNat 8 (a.toNat / 256), BitVec.ofNat 8 a.toNat]
        ∧ bytesAre (.callf a) 0x20 [BitVec.ofNat 8 (a.toNat / 256), BitVec.ofNat 8 a.toNat])
    ∧ (∀ r : CodeAddr, bytesAre (.brf r) 0x11 [BitVec.ofNat 8 r.toNat, BitVec.ofNat 8 (r.toNat / 256)]
        ∧ bytesAre (.callr r) 0x10 [BitVec.ofNat 8 r.toNat, BitVec.ofNat 8 (r.toNat / 256)])

/-! ## Memory (`20_memory.md`) -/

/-- What a data read finds: below 0x100 the cell of the RAM bank `psw[1]` selects; at 0x100..0x106 the named registers, `psw`
with any value in bits 5 and 0; above that the device region. The map is the spec's decisions D3, D5, D8; that an unwritten
RAM cell faults is the model's choice (log 1), and the device oracle is log 11. -/
def Obligations.DataReadFollowsTheMapOfTheDataSpace : Prop :=
  ∀ (s : State) (a : DataAddr),
    (a.toNat < 256 →
        (∀ v, Memory.read s.ram (currentKey s a.toNat) = some v → s.dataRead a = .next v)
          ∧ (Memory.read s.ram (currentKey s a.toNat) = none →
              s.dataRead a = .fault (.unsetRam (s.psw.getLsbD 1).toNat (BitVec.ofNat 8 a.toNat))))
      ∧ s.dataRead 0x100#9 = .next s.acc
      ∧ (∃ v, s.dataRead 0x101#9 = .next v ∧ sameBitsBut [5, 0] s.psw v)
      ∧ s.dataRead 0x102#9 = .next s.b ∧ s.dataRead 0x103#9 = .next s.c ∧ s.dataRead 0x104#9 = .next s.trl
      ∧ s.dataRead 0x105#9 = .next s.trh ∧ s.dataRead 0x106#9 = .next s.sp
      ∧ (263 ≤ a.toNat →
          (s.devicePolicy = .refuse → s.dataRead a = .refused (.deviceRegion a))
            ∧ (s.devicePolicy = .oracle → ∃ v, s.dataRead a = .next v))

/-- What a data write changes: one RAM cell of the bank `psw[1]` selects, or one named register, and nothing else; a write to
`psw` stores its six functional bits and drops bits 5 and 0. The map is the spec's decisions D3, D5, D8, D31; the device
oracle is log 11. -/
def Obligations.DataWriteStoresToTheOneCellItAddresses : Prop :=
  ∀ (s : State) (a : DataAddr) (v : Byte),
    (a.toNat < 256 → ∃ t, s.dataWrite a v = .next t ∧ t = { s with ram := t.ram }
        ∧ ∀ key, Memory.read t.ram key = if key = currentKey s a.toNat then some v else Memory.read s.ram key)
      ∧ s.dataWrite 0x100#9 v = .next { s with acc := v }
      ∧ (∃ p, s.dataWrite 0x101#9 v = .next { s with psw := p } ∧ sameBitsBut [5, 0] v p
          ∧ p.getLsbD 5 = false ∧ p.getLsbD 0 = false)
      ∧ s.dataWrite 0x102#9 v = .next { s with b := v } ∧ s.dataWrite 0x103#9 v = .next { s with c := v }
      ∧ s.dataWrite 0x104#9 v = .next { s with trl := v } ∧ s.dataWrite 0x105#9 v = .next { s with trh := v }
      ∧ s.dataWrite 0x106#9 v = .next { s with sp := v }
      ∧ (263 ≤ a.toNat →
          (s.devicePolicy = .refuse → s.dataWrite a v = .refused (.deviceRegion a))
            ∧ (s.devicePolicy = .oracle →
                s.dataWrite a v = .next { s with deviceWrites := s.deviceWrites ++ [(a, v)] }))

/-- The address `@Ri` denotes: the pointer is the RAM cell `4 * psw[4:3] + i` of the bank the launch parameter names, and the
target is `256 * i[1]` plus the pointer. The whole function is the spec's decision D6; the fault of an unwritten pointer cell
is log 1. -/
def Obligations.IndirectAddressComesFromThePointerCell : Prop :=
  ∀ (s : State) (i : IndReg),
    let cell := 4 * (s.psw.toNat / 8 % 4) + i.toNat
    let bank := if s.riPtrBank = .current then (s.psw.getLsbD 1).toNat else 0
    (∀ pointer, Memory.read s.ram (256 * bank + cell) = some pointer →
        ∃ ea, s.indAddr i = .next ea ∧ ea.toNat = 256 * (i.toNat / 2) + pointer.toNat)
      ∧ (Memory.read s.ram (256 * bank + cell) = none → s.indAddr i = .fault (.unsetRam bank (BitVec.ofNat 8 cell)))

/-- The stack primitives reach cell `p` of RAM bank 0 whatever `psw` says, and nothing else (decision D7; the fault of an
unwritten cell is log 1). -/
def Obligations.StackAccessesReachRamBankZero : Prop :=
  ∀ (s : State) (p : Byte),
    (∀ v, Memory.read s.ram p.toNat = some v → s.stackRead p = .next v)
      ∧ (Memory.read s.ram p.toNat = none → s.stackRead p = .fault (.unsetRam 0 p))
      ∧ ∀ v, s.stackWrite p v = { s with ram := (s.stackWrite p v).ram }
          ∧ ∀ key, Memory.read (s.stackWrite p v).ram key = if key = p.toNat then some v else Memory.read s.ram key

/-- R34. A code read returns the cell of the code space, changes nothing, and is refused for a cell the image does not
cover. So is a step whose boundary lets the next instruction run and whose fetch meets such a cell: byte `k` of the
instruction, 0, 1 or 2, where the bytes before it are covered and the first one says that the instruction has a byte `k`. -/
def Obligations.CodeReadRefusesWhatTheImageDoesNotCover : Prop :=
  (∀ (s : State) (a : CodeAddr),
    (∀ v, Memory.read s.code a.toNat = some v → s.codeRead a = .next v)
      ∧ (Memory.read s.code a.toNat = none → s.codeRead a = .refused (.codeNotCovered a)))
    ∧ ∀ (s t : State) (k : Nat), s.boundary = .run t →
        (∀ j, j < k → ∃ v, Memory.read t.code (t.pc + BitVec.ofNat 16 j).toNat = some v) →
        (∀ b0, Memory.read t.code t.pc.toNat = some b0 → k < instrLength b0) →
        Memory.read t.code (t.pc + BitVec.ofNat 16 k).toNat = none →
          step s = .refused (.codeNotCovered (t.pc + BitVec.ofNat 16 k))

/-! ## Arithmetic (`40_arithmetic.md`) -/

/-- `add` and `addc` in all their forms. The three flag formulas are the spec's decision D13. -/
def Obligations.AddAndAddcSumIntoAccAndSetTheFlags : Prop :=
  ∀ s : State,
    forEachSource .addImm .addDir .addInd s (addOutcome s 0)
      ∧ forEachSource .addcImm .addcDir .addcInd s (addOutcome s (s.psw.getLsbD 7).toNat)

/-- `sub` and `subc` in all their forms. The three flag formulas are the spec's decision D14. -/
def Obligations.SubAndSubcSubtractFromAccAndSetTheFlags : Prop :=
  ∀ s : State,
    forEachSource .subImm .subDir .subInd s (subOutcome s 0)
      ∧ forEachSource .subcImm .subcDir .subcInd s (subOutcome s (s.psw.getLsbD 7).toNat)

/-- `inc` and `dec` in both forms: the cell one more or one less mod 256 (the wrap is decision D19), no flag. -/
def Obligations.IncAndDecStepTheirCell : Prop :=
  ∀ s : State,
    forEachCell .incDir .incInd 2 1 s (stepCellOutcome s 1 (fun _ => false) 0#8)
      ∧ forEachCell .decDir .decInd 2 1 s (stepCellOutcome s 255 (fun _ => false) 0#8)

/-- `mul`: the 24-bit product of `acc ++ c` and `b`, unsigned (decision D15), in `b`, `acc`, `c`. -/
def Obligations.MulLeavesTheProductInBAccC : Prop :=
  ∀ s : State,
    let p := (256 * s.acc.toNat + s.c.toNat) * s.b.toNat
    ∃ t, exec .mul s = .next t
      ∧ t = { s with acc := t.acc, b := t.b, c := t.c, psw := t.psw, pc := s.pc + 1#16 }
      ∧ 65536 * t.b.toNat + 256 * t.acc.toNat + t.c.toNat = p
      ∧ t.psw.getLsbD 7 = false ∧ t.psw.getLsbD 2 = decide (65535 < p) ∧ sameBitsBut [7, 2] s.psw t.psw

/-- `div`: quotient in `acc ++ c` and remainder in `b`, unsigned (decision D15), `ov` set when the remainder is zero; for a
zero divisor `acc`, `c`, `b` and `ov` are open (decision D16, log 9) and everything else is as ever. -/
def Obligations.DivLeavesQuotientAndRemainder : Prop :=
  ∀ s : State,
    ∃ t, exec .div s = .next t
      ∧ t = { s with acc := t.acc, b := t.b, c := t.c, psw := t.psw, pc := s.pc + 1#16 }
      ∧ (s.b ≠ 0#8 →
          256 * s.acc.toNat + s.c.toNat = (256 * t.acc.toNat + t.c.toNat) * s.b.toNat + t.b.toNat
            ∧ t.b.toNat < s.b.toNat ∧ t.psw.getLsbD 2 = decide (t.b = 0#8))
      ∧ t.psw.getLsbD 7 = false ∧ sameBitsBut [7, 2] s.psw t.psw

/-! ## Logic and rotate (`41_logic_rotate.md`) -/

/-- `and` in all its forms. That the result goes to `acc` is an inference of the spec. -/
def Obligations.AndPutsTheBitwiseAndIntoAcc : Prop :=
  ∀ s : State, forEachSource .andImm .andDir .andInd s (bitwiseOutcome (· && ·) s)

/-- `or` and `xor` in all their forms, with their encodings. That the result goes to `acc` is an inference of the spec
(R80). -/
def Obligations.OrAndXorPutTheBitwiseResultIntoAcc : Prop :=
  (∀ s : State,
    forEachSource .orImm .orDir .orInd s (bitwiseOutcome (· || ·) s)
      ∧ forEachSource .xorImm .xorDir .xorInd s (bitwiseOutcome (fun x y => x != y) s))
    ∧ sourceBytes .orImm .orDir .orInd 0xD1 0xD2 0xD4 ∧ sourceBytes .xorImm .xorDir .xorInd 0xF1 0xF2 0xF4

/-- R83, R84, R86. `rol`, `rolc` and `rorc`: where each bit of `acc` and `cy` goes, with the encodings. -/
def Obligations.RolRolcRorcRotateByOneBit : Prop :=
  (∀ s : State,
    (∃ r : Byte, exec .rol s = .next { s with acc := r, pc := s.pc + 1#16 }
        ∧ (∀ n, n < 7 → r.getLsbD (n + 1) = s.acc.getLsbD n) ∧ r.getLsbD 0 = s.acc.getLsbD 7)
      ∧ (∃ r p : Byte, exec .rolc s = .next { s with acc := r, psw := p, pc := s.pc + 1#16 }
          ∧ (∀ n, n < 7 → r.getLsbD (n + 1) = s.acc.getLsbD n) ∧ r.getLsbD 0 = s.cy
          ∧ p.getLsbD Config.bitCy = s.acc.getLsbD 7 ∧ sameBitsBut [Config.bitCy] s.psw p)
      ∧ (∃ r p : Byte, exec .rorc s = .next { s with acc := r, psw := p, pc := s.pc + 1#16 }
          ∧ (∀ n, n < 7 → r.getLsbD n = s.acc.getLsbD (n + 1)) ∧ r.getLsbD 7 = s.cy
          ∧ p.getLsbD Config.bitCy = s.acc.getLsbD 0 ∧ sameBitsBut [Config.bitCy] s.psw p))
    ∧ bytesAre .rol 0xE0 [] ∧ bytesAre .rolc 0xF0 [] ∧ bytesAre .rorc 0xD0 []

/-- `ror` rotates `acc` right by one bit (the amount is an inference of the spec) and touches no flag; `rol` then `ror`
restores `acc`, `rolc` then `rorc` restores `acc` and `psw`, and so do the opposite orders. -/
def Obligations.RorRotatesRightAndRotatesUndoEachOther : Prop :=
  ∀ s : State,
    (∃ r : Byte, exec .ror s = .next { s with acc := r, pc := s.pc + 1#16 }
        ∧ (∀ n, n < 7 → r.getLsbD n = s.acc.getLsbD (n + 1)) ∧ r.getLsbD 7 = s.acc.getLsbD 0)
      ∧ ∀ i j, (i, j) ∈ [(Instr.rol, Instr.ror), (.ror, .rol), (.rolc, .rorc), (.rorc, .rolc)] →
          ∃ t, exec i s = .next t ∧ exec j t = .next { s with pc := s.pc + 2#16 }

/-! ## Bit instructions (`42_bit.md`) -/

/-- `clr1`, `set1` and `not1`: the cell written back with the one bit changed, with the encodings. That bit `b3` is the bit of
weight `2 ^ b3` is the spec's decision D10 (log 18). -/
def Obligations.BitInstructionsChangeOneBitOfTheirCell : Prop :=
  (∀ (s : State) (d : DataAddr) (n : BitNum) (v : Byte), s.dataRead d = .next v →
    (∃ w u, s.dataWrite d w = .next u ∧ exec (.clr1 d n) s = .next { u with pc := s.pc + 2#16 }
        ∧ w.getLsbD n.toNat = false ∧ sameBitsBut [n.toNat] v w)
      ∧ (∃ w u, s.dataWrite d w = .next u ∧ exec (.set1 d n) s = .next { u with pc := s.pc + 2#16 }
          ∧ w.getLsbD n.toNat = true ∧ sameBitsBut [n.toNat] v w)
      ∧ (∃ w u, s.dataWrite d w = .next u ∧ exec (.not1 d n) s = .next { u with pc := s.pc + 2#16 }
          ∧ w.getLsbD n.toNat = !v.getLsbD n.toNat ∧ sameBitsBut [n.toNat] v w))
    ∧ ∀ d n, bitBytes (.clr1 d n) 0xC8 d n [] ∧ bitBytes (.set1 d n) 0xE8 d n [] ∧ bitBytes (.not1 d n) 0xA8 d n []

/-! ## Data transfer (`43_data_transfer.md`) -/

/-- R100. `ld` in both forms, with its encodings. -/
def Obligations.LdLoadsTheCellIntoAcc : Prop :=
  (∀ s : State, forEachCell .ldDir .ldInd 2 1 s fun ea len o =>
    ∀ v, s.dataRead ea = .next v → o = .next { s with acc := v, pc := s.pc + BitVec.ofNat 16 len })
    ∧ cellBytes .ldDir .ldInd 0x02 0x04

/-- R101, R102. `st` and `mov` in both forms write `acc` or the constant to the cell, with their encodings. -/
def Obligations.StAndMovWriteTheCell : Prop :=
  (∀ s : State,
    (forEachCell .stDir .stInd 2 1 s fun ea len o =>
        writable s ea → ∃ u, s.dataWrite ea s.acc = .next u ∧ o = .next { u with pc := s.pc + BitVec.ofNat 16 len })
      ∧ ∀ v, forEachCell (.movDir v) (.movInd v) 3 2 s fun ea len o =>
          writable s ea → ∃ u, s.dataWrite ea v = .next u ∧ o = .next { u with pc := s.pc + BitVec.ofNat 16 len })
    ∧ cellBytes .stDir .stInd 0x12 0x14
    ∧ (∀ (v : Byte) (d : DataAddr), bytesAre (.movDir v d) (0x22 + d.toNat / 256) [BitVec.ofNat 8 d.toNat, v])
    ∧ ∀ (v : Byte) (k : IndReg), bytesAre (.movInd v k) (0x24 + k.toNat) [v]

/-- R106. `xch` in both forms: the cell gets the old `acc`, `acc` the old cell, with its encodings. -/
def Obligations.XchExchangesAccWithTheCell : Prop :=
  (∀ s : State, forEachCell .xchDir .xchInd 2 1 s fun ea len o =>
    ∀ v, s.dataRead ea = .next v →
      ∃ u, s.dataWrite ea s.acc = .next u ∧ o = .next { u with acc := v, pc := s.pc + BitVec.ofNat 16 len })
    ∧ cellBytes .xchDir .xchInd 0xC2 0xC4

/-- `ldc` reads the code cell `trh * 256 + trl + acc` mod 65536, `acc` unsigned (decisions D9, D17); it is refused for a
cell the image does not cover. -/
def Obligations.LdcReadsTheCodeCellAtTrPlusAcc : Prop :=
  ∀ s : State,
    let a := (256 * s.trh.toNat + s.trl.toNat + s.acc.toNat) % 65536
    (∀ v, Memory.read s.code a = some v → exec .ldc s = .next { s with acc := v, pc := s.pc + 1#16 })
      ∧ (Memory.read s.code a = none → exec .ldc s = .refused (.codeNotCovered (BitVec.ofNat 16 a)))

/-- `push` moves `sp` up, mod 256, and then writes the cell's value there; `pop` reads the stack, writes the cell and moves
`sp` down, mod 256. The wrap and the stack's bank are decision D7. -/
def Obligations.PushAndPopMoveOneByteAndSp : Prop :=
  ∀ (s : State) (d : DataAddr), d ≠ 0x106#9 →
    (∀ v, s.dataRead d = .next v →
        ∃ t, exec (.push d) s = .next t
          ∧ t = { s with sp := BitVec.ofNat 8 (s.sp.toNat + 1), pc := s.pc + 2#16, ram := t.ram }
          ∧ ∀ key, Memory.read t.ram key = if key = (s.sp.toNat + 1) % 256 then some v else Memory.read s.ram key)
      ∧ ∀ v, writable s d → Memory.read s.ram s.sp.toNat = some v →
          ∃ u, s.dataWrite d v = .next u
            ∧ exec (.pop d) s = .next { u with sp := BitVec.ofNat 8 (s.sp.toNat + 255), pc := s.pc + 2#16 }

/-- `push x` followed by `pop y` writes the value of cell `x` to cell `y` and restores `sp` (the stack is decision D7). -/
def Obligations.PushThenPopCopiesTheCell : Prop :=
  ∀ (s : State) (x y : DataAddr) (v : Byte), x ≠ 0x106#9 → y ≠ 0x106#9 → s.dataRead x = .next v → writable s y →
    ∃ t w, exec (.push x) s = .next t ∧ t.dataWrite y v = .next w
      ∧ exec (.pop y) t = .next { w with sp := s.sp, pc := s.pc + 4#16 }

/-- The forms to which the spec gives no meaning are refused by name in every state: `ldf` and `stf` (decision D18), `push`
and `pop` of `sp` itself (decision D21). -/
def Obligations.FormsWithoutMeaningAreRefused : Prop :=
  ∀ s : State,
    exec .ldf s = .refused .flashLoad ∧ exec .stf s = .refused .flashStore
      ∧ exec (.push 0x106#9) s = .refused .stackPointerOperand ∧ exec (.pop 0x106#9) s = .refused .stackPointerOperand

/-! ## Jump and branch (`44_jump_branch.md`) -/

/-- `jmp` and `call` go to the 12-bit address in the 4 KiB page of the address of the following instruction (that the page is
that of `next` is an inference of the spec); `call` pushes that address first (the stack is decision D7). -/
def Obligations.JmpAndCallStayInThePageOfTheFollowingInstruction : Prop :=
  ∀ (s : State) (a : PageAddr),
    let target := BitVec.ofNat 16 (4096 * ((s.pc.toNat + 2) % 65536 / 4096) + a.toNat)
    exec (.jmp a) s = .next { s with pc := target } ∧ callOutcome s 2 target (exec (.call a) s)

/-- R114, R116. `jmpf` goes to its absolute address and `brf` to `(next - 1 + r16) mod 65536`, with their encodings. -/
def Obligations.JmpfAndBrfReachTheirTargets : Prop :=
  (∀ (s : State) (a : CodeAddr), exec (.jmpf a) s = .next { s with pc := a })
    ∧ (∀ (s : State) (r : CodeAddr),
        exec (.brf r) s = .next { s with pc := BitVec.ofNat 16 (s.pc.toNat + 3 + 65535 + r.toNat) })
    ∧ (∀ a : CodeAddr, bytesAre (.jmpf a) 0x21 [BitVec.ofNat 8 (a.toNat / 256), BitVec.ofNat 8 a.toNat])
    ∧ ∀ r : CodeAddr, bytesAre (.brf r) 0x11 [BitVec.ofNat 8 r.toNat, BitVec.ofNat 8 (r.toNat / 256)]

/-- `rel8` adds a signed offset to an address, mod 65536 (decisions D11, D12), and `br` goes to `rel8` of the address of the
following instruction. The other branches have statements of their own, in terms of `rel8`. -/
def Obligations.BrAndRelEightAddASignedOffset : Prop :=
  (∀ (next : CodeAddr) (r : Byte), ((rel8 next r).toNat : Int) = (next.toNat + r.toInt) % 65536)
    ∧ ∀ (s : State) (r : Byte), exec (.br r) s = .next { s with pc := rel8 (s.pc + 2#16) r }

/-- R117, R118. `bz` and `bnz` branch on `acc` itself, with their encodings. -/
def Obligations.BzAndBnzBranchOnAcc : Prop :=
  (∀ (s : State) (r : Byte),
    exec (.bz r) s = .next { s with pc := if s.acc.toNat = 0 then rel8 (s.pc + 2#16) r else s.pc + 2#16 }
      ∧ exec (.bnz r) s = .next { s with pc := if s.acc.toNat = 0 then s.pc + 2#16 else rel8 (s.pc + 2#16) r })
    ∧ ∀ r : Byte, bytesAre (.bz r) 0x80 [r] ∧ bytesAre (.bnz r) 0x90 [r]

/-- `bp` and `bn` branch on a bit of a cell that they only read, with their encodings. That bit `b3` is the bit of weight
`2 ^ b3` is the spec's decision D10 (log 18). -/
def Obligations.BpAndBnBranchOnABitOfTheCell : Prop :=
  (∀ (s : State) (d : DataAddr) (n : BitNum) (r v : Byte), s.dataRead d = .next v →
    exec (.bp d n r) s =
        .next { s with pc := if v.toNat / 2 ^ n.toNat % 2 = 1 then rel8 (s.pc + 3#16) r else s.pc + 3#16 }
      ∧ exec (.bn d n r) s =
          .next { s with pc := if v.toNat / 2 ^ n.toNat % 2 = 0 then rel8 (s.pc + 3#16) r else s.pc + 3#16 })
    ∧ ∀ d n r, bitBytes (.bp d n r) 0x68 d n [r] ∧ bitBytes (.bn d n r) 0x88 d n [r]

/-- `bpc` clears the bit and branches when the bit is set; when it is clear it writes nothing and falls through (an inference
of the spec, decision D32). That bit `b3` is the bit of weight `2 ^ b3` is decision D10 (log 18). -/
def Obligations.BpcClearsTheBitItBranchesOn : Prop :=
  ∀ (s : State) (d : DataAddr) (n : BitNum) (r v : Byte), s.dataRead d = .next v →
    (v.getLsbD n.toNat = true →
        ∃ w u, s.dataWrite d w = .next u ∧ exec (.bpc d n r) s = .next { u with pc := rel8 (s.pc + 3#16) r }
          ∧ w.getLsbD n.toNat = false ∧ sameBitsBut [n.toNat] v w)
      ∧ (v.getLsbD n.toNat = false → exec (.bpc d n r) s = .next { s with pc := s.pc + 3#16 })

/-- `dbnz` in both forms decrements the cell mod 256 (decision D19), writes it either way, and branches when the value written
is not zero. -/
def Obligations.DbnzDecrementsAndBranchesOnNonZero : Prop :=
  ∀ (s : State) (r : Byte),
    forEachCell (fun d => .dbnzDir d r) (fun k => .dbnzInd k r) 3 2 s (stepCellOutcome s 255 (fun w => w != 0#8) r)

/-- `be` and `bne` in all their forms: an unsigned compare whose borrow goes to `cy`, cleared when not less (decision D15),
and a branch on equality; nothing else changes. -/
def Obligations.BeAndBneCompareAndBranch : Prop :=
  ∀ (s : State) (v r : Byte) (d : DataAddr) (k : IndReg) (wanted : Bool) (imm dir ind : Instr),
    (wanted, imm, dir, ind) ∈
        [(true, Instr.beImm v r, Instr.beDir d r, Instr.beInd k v r), (false, .bneImm v r, .bneDir d r, .bneInd k v r)] →
      compareOutcome s s.acc v wanted r (exec imm s)
        ∧ (∀ y, s.dataRead d = .next y → compareOutcome s s.acc y wanted r (exec dir s))
        ∧ (∀ ea x, s.indAddr k = .next ea → s.dataRead ea = .next x → compareOutcome s x v wanted r (exec ind s))

/-! ## Call and return (`45_call_return.md`) -/

/-- `callf` and `callr` push the address of the following instruction and go to their target, with their encodings. That the
stack is RAM bank 0 and `sp` wraps mod 256 is the spec's decision D7 (log 15). -/
def Obligations.CallfAndCallrPushTheReturnAddress : Prop :=
  (∀ (s : State) (a : CodeAddr), callOutcome s 3 a (exec (.callf a) s))
    ∧ (∀ (s : State) (r : CodeAddr),
        callOutcome s 3 (BitVec.ofNat 16 (s.pc.toNat + 3 + 65535 + r.toNat)) (exec (.callr r) s))
    ∧ (∀ a : CodeAddr, bytesAre (.callf a) 0x20 [BitVec.ofNat 8 (a.toNat / 256), BitVec.ofNat 8 a.toNat])
    ∧ ∀ r : CodeAddr, bytesAre (.callr r) 0x10 [BitVec.ofNat 8 r.toNat, BitVec.ofNat 8 (r.toNat / 256)]

/-- `ret` pops `pc`, the high byte first; `reti` does the same and clears `int_hold`. Neither restores `psw` or anything else.
With their encodings. That `reti` resumes one bit is the spec's decision D22 (log 24), and the wrap of `sp` is D7 (log 15). -/
def Obligations.RetAndRetiPopPc : Prop :=
  (∀ (s : State) (high low : Byte), s.stackRead s.sp = .next high → s.stackRead (s.sp - 1#8) = .next low →
    exec .ret s = .next { s with sp := s.sp - 2#8, pc := BitVec.ofNat 16 (256 * high.toNat + low.toNat) }
      ∧ exec .reti s =
          .next { s with sp := s.sp - 2#8, pc := BitVec.ofNat 16 (256 * high.toNat + low.toNat), intHold := false })
    ∧ bytesAre .ret 0xA0 [] ∧ bytesAre .reti 0xB0 []

/-- R135. `nop` only advances `pc`. -/
def Obligations.NopOnlyAdvancesPc : Prop :=
  (∀ s : State, exec .nop s = .next { s with pc := s.pc + 1#16 }) ∧ bytesAre .nop 0x00 []

/-- Whichever call runs, the low and the high byte of `next` stand in the two cells above the old `sp`, and the matching return
restores `sp` and goes to `next`; nothing but those two cells has changed. That the cells are those of RAM bank 0 and that
`sp` wraps mod 256 is the spec's decision D7 (log 15). -/
def Obligations.ReturnUndoesCall : Prop :=
  ∀ (s : State) (i : Instr) (len : Nat) (a : PageAddr) (w : CodeAddr),
    (i, len) ∈ [(Instr.call a, 2), (.callf w, 3), (.callr w, 3)] →
      ∃ t, exec i s = .next t ∧ t.sp = s.sp + 2#8 ∧ pushedWord s t (s.pc + BitVec.ofNat 16 len)
        ∧ t.stackRead (s.sp + 1#8) = .next (BitVec.ofNat 8 (s.pc.toNat + len))
        ∧ t.stackRead (s.sp + 2#8) = .next (BitVec.ofNat 8 ((s.pc.toNat + len) % 65536 / 256))
        ∧ exec .ret t = .next { s with pc := s.pc + BitVec.ofNat 16 len, ram := t.ram }

/-! ## Interrupts (`60_exceptions.md`) -/

/-- Interrupt entry: where the agent asks and `int_hold` is clear, the step pushes `pc`, low byte first, sets `int_hold` and
goes to the vector; nothing else changes (an inference and decision D22 of the spec; the agent's moves are log 6). -/
def Obligations.InterruptEntryPushesPcAndSetsTheHold : Prop :=
  ∀ (s : State) (vector : CodeAddr) (moves : List AgentMove),
    s.agent = .request vector :: moves → s.intHold = false →
      ∃ t, step s = .next t
        ∧ t = { s with agent := moves, sp := s.sp + 2#8, pc := vector, intHold := true, ram := t.ram }
        ∧ pushedWord s t s.pc

/-- While `int_hold` is set a request waits: the step runs the instruction at `pc` and the request stays (decision D22,
log 6). -/
def Obligations.HeldInterruptWaits : Prop :=
  ∀ (s : State) (vector : CodeAddr) (moves : List AgentMove),
    s.agent = .request vector :: moves → s.intHold = true →
      (∀ i u, s.fetch = .next i → exec i s = .next u → step s = .next { u with draws := s.draws + 1 })
        ∧ ∀ t, step s = .next t → t.agent = s.agent

/-- A delivered interrupt whose handler is `reti` alone: the interrupted code goes on where it was, with `int_hold` clear and
every register as it was; only the two stack cells above `sp` have changed (decisions D7 and D22, logs 6, 15 and 24). -/
def Obligations.RetiUndoesInterruptEntry : Prop :=
  ∀ (s : State) (vector : CodeAddr) (moves : List AgentMove),
    s.agent = .request vector :: moves → s.intHold = false →
      ∃ t, step s = .next t ∧ pushedWord s t s.pc ∧ exec .reti t = .next { s with agent := moves, ram := t.ram }

/-- `reti` is the only instruction that changes `int_hold`, and it clears it; a step that sets it delivers an interrupt that
the agent asked for (decision D22, log 6). -/
def Obligations.OnlyRetiEndsTheHoldAndOnlyEntrySetsIt : Prop :=
  (∀ (i : Instr) (s t : State), exec i s = .next t → t.intHold = (s.intHold && decide (i ≠ .reti)))
    ∧ ∀ s t : State, step s = .next t → s.intHold = false → t.intHold = true →
        ∃ vector moves, s.agent = .request vector :: moves ∧ t.pc = vector

/-! ## The step -/

/-- The boundary lets the next instruction run where the agent has no move left, where it asks for nothing (that move is then
used up and nothing else changes), and where its request has to wait (log 6). Where the boundary lets the next instruction
run and its bytes stand at `pc`, the step is `exec` of it, after which the model's draw counter (log 8) moves on by one and
nothing else happens. -/
def Obligations.StepRunsTheInstructionAtPc : Prop :=
  (∀ s : State, s.agent = [] → s.boundary = .run s)
    ∧ (∀ (s : State) (moves : List AgentMove), s.agent = .quiet :: moves → s.boundary = .run { s with agent := moves })
    ∧ (∀ (s : State) (vector : CodeAddr) (moves : List AgentMove), s.agent = .request vector :: moves → s.intHold = true →
        s.boundary = .run s)
    ∧ ∀ (s t : State) (i : Instr), s.boundary = .run t → codeHolds t (encode i) →
        (∀ u, exec i t = .next u → step s = .next { u with draws := u.draws + 1 })
          ∧ (∀ f, exec i t = .fault f → step s = .fault f) ∧ ∀ r, exec i t = .refused r → step s = .refused r

/-- An opcode-table word placed where the next step fetches is the instruction that the next step runs (log 2). -/
def Obligations.StepRunsThePlacedTableWord : Prop :=
  ∀ (s : State) (nbits w : Nat) (i : Instr), decodeTableWord nbits w = some i →
    step (s.withFetchWord nbits w) =
      onValue (exec i (s.withFetchWord nbits w)) fun u => .next { u with draws := u.draws + 1 }

/-- The state after reset is in canonical form. Its values are the model's choices (logs 1 to 6). -/
def Obligations.ResetStateIsWellFormed : Prop := State.reset.wf = true

/-- Every step from a state in canonical form ends in a state in canonical form: RAM and code space keep their sorted form
within their bounds, and `psw` bits 5 and 0 stay 0 (log 7). -/
def Obligations.StepKeepsTheStateWellFormed : Prop :=
  ∀ s t : State, s.wf = true → step s = .next t → t.wf = true

/-- No step changes the code space, flash or a launch parameter (decisions D9, D18), and the agent's moves are only used up
from the front (log 6). -/
def Obligations.StepKeepsCodeFlashAndLaunchParameters : Prop :=
  ∀ s t : State, step s = .next t →
    t.code = s.code ∧ t.flash = s.flash ∧ t.riPtrBank = s.riPtrBank ∧ t.devicePolicy = s.devicePolicy
      ∧ t.agent <:+ s.agent

/-! ## Frames over all instructions -/

/-- Every RAM cell outside the bytes an instruction stores to reads as before. The stored cells are computed as the meanings
compute them: the data operand written, in the bank selected before, and the cells of bank 0 pushed to (decisions D5 to
D7). -/
def Obligations.RamOutsideTheStoredCellsIsUnchanged : Prop :=
  ∀ (i : Instr) (s t : State), exec i s = .next t →
    ∀ key, key ∉ i.storedKeys s → Memory.read t.ram key = Memory.read s.ram key

/-- Every named register other than `psw` is unchanged unless the instruction has it as its implicit destination or writes
its data address; `sp` moves by what the instruction pushes and pops; and no instruction changes the code space, flash, a
launch parameter, the agent or the draw counter (the addresses are decision D3). -/
def Obligations.RegistersChangeOnlyWhereWritten : Prop :=
  ∀ (i : Instr) (s t : State), exec i s = .next t →
    (i.writesAcc = false → i.storeAddr s ≠ some 0x100#9 → t.acc = s.acc)
      ∧ (i ≠ .mul → i ≠ .div → i.storeAddr s ≠ some 0x102#9 → t.b = s.b)
      ∧ (i ≠ .mul → i ≠ .div → i.storeAddr s ≠ some 0x103#9 → t.c = s.c)
      ∧ (i.storeAddr s ≠ some 0x104#9 → t.trl = s.trl) ∧ (i.storeAddr s ≠ some 0x105#9 → t.trh = s.trh)
      ∧ (i.storeAddr s ≠ some 0x106#9 → t.sp = s.sp + BitVec.ofNat 8 i.pushes - BitVec.ofNat 8 i.pops)
      ∧ t.code = s.code ∧ t.flash = s.flash ∧ t.riPtrBank = s.riPtrBank ∧ t.devicePolicy = s.devicePolicy
      ∧ t.agent = s.agent ∧ t.draws = s.draws

/-- Each bit of `psw` is unchanged unless it is a flag the instruction writes as a side effect or the instruction writes
`psw` as data (the places of the flags are decision D4). -/
def Obligations.PswBitsChangeOnlyWhereWritten : Prop :=
  ∀ (i : Instr) (s t : State), exec i s = .next t → i.storeAddr s ≠ some 0x101#9 →
    sameBitsBut i.flagBits s.psw t.psw

/-! ## Stops -/

/-- Why `exec` stops, and no other reason: a fault is that of the instruction's own read of a RAM cell that nothing has written
(log 1); a refusal is an access of its own operand to the device region under the policy `refuse` (decision D8), `ldf` or
`stf` (decision D18), `push` or `pop` of `sp` (decision D21), or an `ldc` whose cell the image does not cover. -/
def Obligations.ExecStopsOnlyForTheNamedReasons : Prop :=
  (∀ (i : Instr) (s : State) (f : Fault), exec i s = .fault f → faultingRead i s f
    ∧ ∃ (bank : Nat) (cell : Byte), f = .unsetRam bank cell ∧ Memory.read s.ram (256 * bank + cell.toNat) = none)
    ∧ ∀ (i : Instr) (s : State) (r : Refusal), exec i s = .refused r →
        (∃ a : DataAddr, r = .deviceRegion a ∧ operandAddr i s a ∧ 263 ≤ a.toNat ∧ s.devicePolicy = .refuse)
          ∨ (r = .flashLoad ∧ i = .ldf) ∨ (r = .flashStore ∧ i = .stf)
          ∨ (r = .stackPointerOperand ∧ (i = .push 0x106#9 ∨ i = .pop 0x106#9))
          ∨ (∃ a : CodeAddr, r = .codeNotCovered a ∧ i = .ldc
              ∧ a.toNat = (256 * s.trh.toNat + s.trl.toNat + s.acc.toNat) % 65536 ∧ Memory.read s.code a.toNat = none)

/-- A well-formed instruction other than `ldc` whose `@Ri` operand, if it has one, is `@R0` or `@R1` is never refused
(decisions D6, D8). -/
def Obligations.WellFormedInstructionsAreNotRefused : Prop :=
  ∀ (i : Instr) (s : State) (r : Refusal), i.wellFormed = true → i ≠ .ldc → (∀ k, i.indReg = some k → k.toNat < 2) →
    exec i s ≠ .refused r

/-- Under the policy `refuse` every instruction whose direct or indirect operand lies in the device region is refused for that
address (decision D8); `pop` reads the stack first, so its statement needs the stack cell to have a value. -/
def Obligations.DeviceOperandsAreRefused : Prop :=
  (∀ (i : Instr) (s : State) (d : DataAddr), i.directAddr = some d → 263 ≤ d.toNat → s.devicePolicy = .refuse →
    (i = .pop d → ∃ v, s.stackRead s.sp = .next v) → exec i s = .refused (.deviceRegion d))
    ∧ ∀ (i : Instr) (s : State) (k : IndReg) (ea : DataAddr), i.indReg = some k → s.indAddr k = .next ea → 263 ≤ ea.toNat →
        s.devicePolicy = .refuse → exec i s = .refused (.deviceRegion ea)

/-- An instruction that reads a RAM cell nothing has written stops with that cell's fault (log 1): its direct operand, its
pointer cell, the cell its `@Ri` denotes, the stack cells of `pop`, `ret` and `reti`. `st`, `mov` and `pop` do not read the
cell they write. -/
def Obligations.UnwrittenOperandsFault : Prop :=
  (∀ (i : Instr) (s : State) (d : DataAddr) (f : Fault), i.directAddr = some d → s.dataRead d = .fault f →
    i ≠ .stDir d → (∀ v, i ≠ .movDir v d) → i ≠ .pop d → exec i s = .fault f)
    ∧ (∀ (i : Instr) (s : State) (k : IndReg) (f : Fault), i.indReg = some k → s.indAddr k = .fault f → exec i s = .fault f)
    ∧ (∀ (i : Instr) (s : State) (k : IndReg) (ea : DataAddr) (f : Fault), i.indReg = some k → s.indAddr k = .next ea →
        s.dataRead ea = .fault f → i ≠ .stInd k → (∀ v, i ≠ .movInd v k) → exec i s = .fault f)
    ∧ (∀ (s : State) (f : Fault), s.stackRead s.sp = .fault f →
        exec .ret s = .fault f ∧ exec .reti s = .fault f ∧ ∀ d, d ≠ 0x106#9 → exec (.pop d) s = .fault f)
    ∧ ∀ (s : State) (v : Byte) (f : Fault), s.stackRead s.sp = .next v → s.stackRead (s.sp - 1#8) = .fault f →
        exec .ret s = .fault f ∧ exec .reti s = .fault f

/-! ## Isolation -/

/-- A step that begins with `psw[1]` clear leaves every cell of RAM bank 1 as it was (decisions D5, D7). -/
def Obligations.StepLeavesBankOneAloneWhileDeselected : Prop :=
  ∀ s t : State, step s = .next t → s.psw.getLsbD 1 = false →
    ∀ cell : Byte, Memory.read t.ram (256 + cell.toNat) = Memory.read s.ram (256 + cell.toNat)

/-- With `psw[1]` clear an instruction does the same whatever `RI_PTR_BANK` is (decision D6, log 10). -/
def Obligations.PointerBankIsInvisibleWhileBankZeroIsSelected : Prop :=
  ∀ (i : Instr) (s : State) (bank : Config.PtrBank), s.psw.getLsbD 1 = false →
    exec i { s with riPtrBank := bank } = onValue (exec i s) fun t => .next { t with riPtrBank := bank }

/-! ## Assembler operands and the end of a run -/

/-- R111. `rel16(next, r16)` is `(next - 1 + r16) mod 65536`; for a 3-byte instruction at `pc` that is
`(pc + 2 + r16) mod 65536`, so the operand `(T - pc - 2) mod 65536` reaches `T`. -/
def Obligations.RelSixteenIsRelativeToTheLastByte : Prop :=
  (∀ next r : CodeAddr, (rel16 next r).toNat = (next.toNat + 65535 + r.toNat) % 65536)
    ∧ (∀ pc r : CodeAddr, (rel16 (pc + 3#16) r).toNat = (pc.toNat + 2 + r.toNat) % 65536)
    ∧ ∀ pc target : CodeAddr,
        (rel16Operand pc target).toNat = (target.toNat + 65536 * 2 - pc.toNat - 2) % 65536
          ∧ rel16 (pc + 3#16) (rel16Operand pc target) = target

/-- The operand that the assembler's check lets pass reaches its target: an `a12` exactly in the page of `next` (R65), an
`r8` exactly within -128..127 of it, mod 65536 (the signed reading is decision D12). -/
def Obligations.AssembledOperandsReachTheirTargets : Prop :=
  (∀ (next target : CodeAddr) (a : PageAddr), pageOperand next target = some a → page12 next a = target)
    ∧ (∀ next target : CodeAddr, pageOperand next target = none ↔ target.toNat / 4096 ≠ next.toNat / 4096)
    ∧ (∀ (next target : CodeAddr) (r : Byte), rel8Operand next target = some r → rel8 next r = target)
    ∧ ∀ next target : CodeAddr, rel8Operand next target = none ↔ ∀ r : Byte, rel8 next r ≠ target

/-- A run is over at `halt_pc` and the instruction there is not executed; before that it goes step by step (decision D26,
log 20). -/
def Obligations.RunEndsAtHaltPc : Prop :=
  (∀ (haltPc : CodeAddr) (fuel : Nat) (s : State), s.pc = haltPc → runToHalt haltPc fuel s = .over s)
    ∧ ∀ (haltPc : CodeAddr) (fuel : Nat) (s t : State), s.pc ≠ haltPc → step s = .next t →
        runToHalt haltPc (fuel + 1) s = runToHalt haltPc fuel t
end

