-- ==== Sys2Proof/Laws/Cycles.lean ====
section
/-! SUPPORT. The "Cycles" column of `70_reset_and_hazards.md` R163, transcribed: a cost annotation outside the trusted
model (R164). Nothing of the model reads it; `ldf` and `stf` are printed `?`. -/

namespace Sys2Proof.Laws

/-- The cycle count printed for a form (R163); `none` where the source prints `?`. -/
def cycles : Instr → Option Nat
  | .addImm _ => some 1
  | .addDir _ => some 1
  | .addInd _ => some 1
  | .addcImm _ => some 1
  | .addcDir _ => some 1
  | .addcInd _ => some 1
  | .subImm _ => some 1
  | .subDir _ => some 1
  | .subInd _ => some 1
  | .subcImm _ => some 1
  | .subcDir _ => some 1
  | .subcInd _ => some 1
  | .incDir _ => some 1
  | .incInd _ => some 1
  | .decDir _ => some 1
  | .decInd _ => some 1
  | .mul => some 7
  | .div => some 7
  | .andImm _ => some 1
  | .andDir _ => some 1
  | .andInd _ => some 1
  | .orImm _ => some 1
  | .orDir _ => some 1
  | .orInd _ => some 1
  | .xorImm _ => some 1
  | .xorDir _ => some 1
  | .xorInd _ => some 1
  | .rol => some 1
  | .rolc => some 1
  | .ror => some 1
  | .rorc => some 1
  | .clr1 _ _ => some 1
  | .set1 _ _ => some 1
  | .not1 _ _ => some 1
  | .ldDir _ => some 1
  | .ldInd _ => some 1
  | .stDir _ => some 1
  | .stInd _ => some 1
  | .movDir _ _ => some 2
  | .movInd _ _ => some 1
  | .ldc => some 2
  | .push _ => some 2
  | .pop _ => some 2
  | .xchDir _ => some 1
  | .xchInd _ => some 1
  | .ldf => none
  | .stf => none
  | .jmp _ => some 2
  | .jmpf _ => some 2
  | .br _ => some 2
  | .brf _ => some 4
  | .bz _ => some 2
  | .bnz _ => some 2
  | .bp _ _ _ => some 2
  | .bpc _ _ _ => some 2
  | .bn _ _ _ => some 2
  | .dbnzDir _ _ => some 2
  | .dbnzInd _ _ => some 2
  | .beImm _ _ => some 2
  | .beDir _ _ => some 2
  | .beInd _ _ _ => some 2
  | .bneImm _ _ => some 2
  | .bneDir _ _ => some 2
  | .bneInd _ _ _ => some 2
  | .call _ => some 2
  | .callf _ => some 2
  | .callr _ => some 2
  | .ret => some 2
  | .reti => some 2
  | .nop => some 1

end Sys2Proof.Laws
end

