-- ==== Sys2Proof/Laws/Memory.lean ====
section
/-! SUPPORT. The laws of a memory: a read after a write, and the canonical form, which every memory operation keeps. -/

namespace Sys2Proof.Machine

@[simp] theorem Memory.read_nil (a : Nat) : Memory.read [] a = none := rfl

@[simp] theorem Memory.read_cons (k a : Nat) (v : Byte) (m : Memory) :
    Memory.read ((k, v) :: m) a = if a = k then some v else Memory.read m a := rfl

/-- What a read finds after a write: the value written at that key, what was there before at every other key. -/
theorem Memory.read_write (m : Memory) (a b : Nat) (v : Byte) :
    Memory.read (Memory.write m a v) b = if b = a then some v else Memory.read m b := by
  induction m with
  | nil => rfl
  | cons cell m ih =>
    obtain ⟨k, w⟩ := cell
    simp only [Memory.write]
    split
    · simp only [Memory.read_cons]
    · split
      · subst_vars
        simp only [Memory.read_cons]
        split <;> simp_all
      · simp only [Memory.read_cons, ih]
        split <;> split <;> simp_all

@[simp] theorem Memory.read_write_same (m : Memory) (a : Nat) (v : Byte) :
    Memory.read (Memory.write m a v) a = some v := by simp [Memory.read_write]

theorem Memory.read_write_other (m : Memory) {a b : Nat} (v : Byte) (h : b ≠ a) :
    Memory.read (Memory.write m a v) b = Memory.read m b := by simp [Memory.read_write, h]

/-- The keys after a write are the keys before it and the key written. -/
theorem Memory.mem_write {m : Memory} {a : Nat} {v : Byte} {cell : Host.Cell} (h : cell ∈ Memory.write m a v) :
    cell.1 = a ∨ cell ∈ m := by
  induction m with
  | nil => simp_all [Memory.write]
  | cons hd m ih =>
    obtain ⟨k, w⟩ := hd
    simp only [Memory.write] at h
    split at h
    · rcases List.mem_cons.1 h with rfl | h
      · exact .inl rfl
      · exact .inr h
    · split at h
      · rcases List.mem_cons.1 h with rfl | h
        · exact .inl rfl
        · exact .inr (List.mem_cons_of_mem _ h)
      · rcases List.mem_cons.1 h with rfl | h
        · exact .inr List.mem_cons_self
        · exact (ih h).imp id (List.mem_cons_of_mem _)

/-- The canonical form, cell by cell. -/
theorem Memory.wf_cons (bound k : Nat) (v : Byte) (m : Memory) :
    Memory.wf bound ((k, v) :: m) = true ↔
      k < bound ∧ (∀ cell ∈ m, k < cell.1) ∧ Memory.wf bound m = true := by
  simp [Memory.wf, List.all_eq_true, and_assoc]

/-- A write inside the bound keeps the canonical form. -/
theorem Memory.wf_write {bound a : Nat} {m : Memory} (v : Byte) (hm : Memory.wf bound m = true) (ha : a < bound) :
    Memory.wf bound (Memory.write m a v) = true := by
  induction m with
  | nil => simp [Memory.write, Memory.wf, ha]
  | cons hd m ih =>
    obtain ⟨k, w⟩ := hd
    obtain ⟨hk, hall, hrest⟩ := (Memory.wf_cons ..).1 hm
    simp only [Memory.write]
    split
    · rename_i hlt
      refine (Memory.wf_cons ..).2 ⟨ha, ?_, hm⟩
      intro cell hc
      rcases List.mem_cons.1 hc with rfl | hc
      · exact hlt
      · exact hlt.trans (hall cell hc)
    · split
      · rename_i heq
        subst heq
        exact (Memory.wf_cons ..).2 ⟨ha, hall, hrest⟩
      · rename_i h1 h2
        refine (Memory.wf_cons ..).2 ⟨hk, ?_, ih hrest⟩
        intro cell hc
        rcases Memory.mem_write hc with h | h
        · omega
        · exact hall cell h

/-- A code image with bytes placed in it keeps the canonical form. -/
theorem placeBytes_wf {m : Memory} (a : CodeAddr) (bytes : List Byte) (hm : Memory.wf Config.codeSize m = true) :
    Memory.wf Config.codeSize (placeBytes m a bytes) = true := by
  induction bytes generalizing m a with
  | nil => exact hm
  | cons v rest ih => exact ih _ (Memory.wf_write v hm (by have := a.isLt; simpa [Config.codeSize] using this))

/-- The key of a cell of a bank that exists lies inside the RAM. -/
theorem ramKey_lt {bank : Nat} (a : Byte) (h : bank < Config.ramBanks) :
    ramKey bank a < Config.ramBanks * Config.bankSize := by
  have := a.isLt
  simp only [ramKey, Config.ramBanks, Config.bankSize] at *
  omega

/-- The bank that `psw` selects exists. -/
theorem State.ramBank_lt (s : State) : s.ramBank < Config.ramBanks := by
  unfold State.ramBank Config.ramBanks
  cases s.psw.getLsbD Config.bitRambk0 <;> decide

/-- Two RAM cells have one key only if they are one cell. -/
theorem ramKey_inj {bank bank' : Nat} {a a' : Byte} : ramKey bank a = ramKey bank' a' ↔ bank = bank' ∧ a = a' := by
  have h := a.isLt
  have h' := a'.isLt
  constructor
  · intro e
    simp only [ramKey, Config.bankSize] at e
    have hb : bank = bank' := by omega
    subst hb
    exact ⟨rfl, BitVec.eq_of_toNat_eq (by omega)⟩
  · rintro ⟨rfl, rfl⟩
    rfl

end Sys2Proof.Machine
end

