-- ==== Sys2Proof/Laws/State.lean ====
section
/-! SUPPORT. One lemma per field per update of the state, true by `rfl`, so that no proof unfolds a record update. -/

namespace Sys2Proof.Machine

variable (s : State)

/-! ## setAcc -/

@[simp] theorem State.setAcc_acc (v : Byte) : (s.setAcc v).acc = v := rfl
@[simp] theorem State.setAcc_b (v : Byte) : (s.setAcc v).b = s.b := rfl
@[simp] theorem State.setAcc_c (v : Byte) : (s.setAcc v).c = s.c := rfl
@[simp] theorem State.setAcc_trl (v : Byte) : (s.setAcc v).trl = s.trl := rfl
@[simp] theorem State.setAcc_trh (v : Byte) : (s.setAcc v).trh = s.trh := rfl
@[simp] theorem State.setAcc_sp (v : Byte) : (s.setAcc v).sp = s.sp := rfl
@[simp] theorem State.setAcc_psw (v : Byte) : (s.setAcc v).psw = s.psw := rfl
@[simp] theorem State.setAcc_pc (v : Byte) : (s.setAcc v).pc = s.pc := rfl
@[simp] theorem State.setAcc_ram (v : Byte) : (s.setAcc v).ram = s.ram := rfl
@[simp] theorem State.setAcc_code (v : Byte) : (s.setAcc v).code = s.code := rfl
@[simp] theorem State.setAcc_flash (v : Byte) : (s.setAcc v).flash = s.flash := rfl
@[simp] theorem State.setAcc_intHold (v : Byte) : (s.setAcc v).intHold = s.intHold := rfl
@[simp] theorem State.setAcc_agent (v : Byte) : (s.setAcc v).agent = s.agent := rfl
@[simp] theorem State.setAcc_riPtrBank (v : Byte) : (s.setAcc v).riPtrBank = s.riPtrBank := rfl
@[simp] theorem State.setAcc_devicePolicy (v : Byte) : (s.setAcc v).devicePolicy = s.devicePolicy := rfl
@[simp] theorem State.setAcc_deviceWrites (v : Byte) : (s.setAcc v).deviceWrites = s.deviceWrites := rfl
@[simp] theorem State.setAcc_draws (v : Byte) : (s.setAcc v).draws = s.draws := rfl

/-! ## setCy -/

@[simp] theorem State.setCy_acc (x : Bool) : (s.setCy x).acc = s.acc := rfl
@[simp] theorem State.setCy_b (x : Bool) : (s.setCy x).b = s.b := rfl
@[simp] theorem State.setCy_c (x : Bool) : (s.setCy x).c = s.c := rfl
@[simp] theorem State.setCy_trl (x : Bool) : (s.setCy x).trl = s.trl := rfl
@[simp] theorem State.setCy_trh (x : Bool) : (s.setCy x).trh = s.trh := rfl
@[simp] theorem State.setCy_sp (x : Bool) : (s.setCy x).sp = s.sp := rfl
@[simp] theorem State.setCy_psw (x : Bool) : (s.setCy x).psw = withBit s.psw Config.bitCy x := rfl
@[simp] theorem State.setCy_pc (x : Bool) : (s.setCy x).pc = s.pc := rfl
@[simp] theorem State.setCy_ram (x : Bool) : (s.setCy x).ram = s.ram := rfl
@[simp] theorem State.setCy_code (x : Bool) : (s.setCy x).code = s.code := rfl
@[simp] theorem State.setCy_flash (x : Bool) : (s.setCy x).flash = s.flash := rfl
@[simp] theorem State.setCy_intHold (x : Bool) : (s.setCy x).intHold = s.intHold := rfl
@[simp] theorem State.setCy_agent (x : Bool) : (s.setCy x).agent = s.agent := rfl
@[simp] theorem State.setCy_riPtrBank (x : Bool) : (s.setCy x).riPtrBank = s.riPtrBank := rfl
@[simp] theorem State.setCy_devicePolicy (x : Bool) : (s.setCy x).devicePolicy = s.devicePolicy := rfl
@[simp] theorem State.setCy_deviceWrites (x : Bool) : (s.setCy x).deviceWrites = s.deviceWrites := rfl
@[simp] theorem State.setCy_draws (x : Bool) : (s.setCy x).draws = s.draws := rfl

/-! ## setAc -/

@[simp] theorem State.setAc_acc (x : Bool) : (s.setAc x).acc = s.acc := rfl
@[simp] theorem State.setAc_b (x : Bool) : (s.setAc x).b = s.b := rfl
@[simp] theorem State.setAc_c (x : Bool) : (s.setAc x).c = s.c := rfl
@[simp] theorem State.setAc_trl (x : Bool) : (s.setAc x).trl = s.trl := rfl
@[simp] theorem State.setAc_trh (x : Bool) : (s.setAc x).trh = s.trh := rfl
@[simp] theorem State.setAc_sp (x : Bool) : (s.setAc x).sp = s.sp := rfl
@[simp] theorem State.setAc_psw (x : Bool) : (s.setAc x).psw = withBit s.psw Config.bitAc x := rfl
@[simp] theorem State.setAc_pc (x : Bool) : (s.setAc x).pc = s.pc := rfl
@[simp] theorem State.setAc_ram (x : Bool) : (s.setAc x).ram = s.ram := rfl
@[simp] theorem State.setAc_code (x : Bool) : (s.setAc x).code = s.code := rfl
@[simp] theorem State.setAc_flash (x : Bool) : (s.setAc x).flash = s.flash := rfl
@[simp] theorem State.setAc_intHold (x : Bool) : (s.setAc x).intHold = s.intHold := rfl
@[simp] theorem State.setAc_agent (x : Bool) : (s.setAc x).agent = s.agent := rfl
@[simp] theorem State.setAc_riPtrBank (x : Bool) : (s.setAc x).riPtrBank = s.riPtrBank := rfl
@[simp] theorem State.setAc_devicePolicy (x : Bool) : (s.setAc x).devicePolicy = s.devicePolicy := rfl
@[simp] theorem State.setAc_deviceWrites (x : Bool) : (s.setAc x).deviceWrites = s.deviceWrites := rfl
@[simp] theorem State.setAc_draws (x : Bool) : (s.setAc x).draws = s.draws := rfl

/-! ## setOv -/

@[simp] theorem State.setOv_acc (x : Bool) : (s.setOv x).acc = s.acc := rfl
@[simp] theorem State.setOv_b (x : Bool) : (s.setOv x).b = s.b := rfl
@[simp] theorem State.setOv_c (x : Bool) : (s.setOv x).c = s.c := rfl
@[simp] theorem State.setOv_trl (x : Bool) : (s.setOv x).trl = s.trl := rfl
@[simp] theorem State.setOv_trh (x : Bool) : (s.setOv x).trh = s.trh := rfl
@[simp] theorem State.setOv_sp (x : Bool) : (s.setOv x).sp = s.sp := rfl
@[simp] theorem State.setOv_psw (x : Bool) : (s.setOv x).psw = withBit s.psw Config.bitOv x := rfl
@[simp] theorem State.setOv_pc (x : Bool) : (s.setOv x).pc = s.pc := rfl
@[simp] theorem State.setOv_ram (x : Bool) : (s.setOv x).ram = s.ram := rfl
@[simp] theorem State.setOv_code (x : Bool) : (s.setOv x).code = s.code := rfl
@[simp] theorem State.setOv_flash (x : Bool) : (s.setOv x).flash = s.flash := rfl
@[simp] theorem State.setOv_intHold (x : Bool) : (s.setOv x).intHold = s.intHold := rfl
@[simp] theorem State.setOv_agent (x : Bool) : (s.setOv x).agent = s.agent := rfl
@[simp] theorem State.setOv_riPtrBank (x : Bool) : (s.setOv x).riPtrBank = s.riPtrBank := rfl
@[simp] theorem State.setOv_devicePolicy (x : Bool) : (s.setOv x).devicePolicy = s.devicePolicy := rfl
@[simp] theorem State.setOv_deviceWrites (x : Bool) : (s.setOv x).deviceWrites = s.deviceWrites := rfl
@[simp] theorem State.setOv_draws (x : Bool) : (s.setOv x).draws = s.draws := rfl

/-! ## setArith -/

@[simp] theorem State.setArith_acc (x y z : Bool) : (s.setArith x y z).acc = s.acc := rfl
@[simp] theorem State.setArith_b (x y z : Bool) : (s.setArith x y z).b = s.b := rfl
@[simp] theorem State.setArith_c (x y z : Bool) : (s.setArith x y z).c = s.c := rfl
@[simp] theorem State.setArith_trl (x y z : Bool) : (s.setArith x y z).trl = s.trl := rfl
@[simp] theorem State.setArith_trh (x y z : Bool) : (s.setArith x y z).trh = s.trh := rfl
@[simp] theorem State.setArith_sp (x y z : Bool) : (s.setArith x y z).sp = s.sp := rfl
@[simp] theorem State.setArith_psw (x y z : Bool) : (s.setArith x y z).psw =
    withBit (withBit (withBit s.psw Config.bitCy x) Config.bitAc y) Config.bitOv z := rfl
@[simp] theorem State.setArith_pc (x y z : Bool) : (s.setArith x y z).pc = s.pc := rfl
@[simp] theorem State.setArith_ram (x y z : Bool) : (s.setArith x y z).ram = s.ram := rfl
@[simp] theorem State.setArith_code (x y z : Bool) : (s.setArith x y z).code = s.code := rfl
@[simp] theorem State.setArith_flash (x y z : Bool) : (s.setArith x y z).flash = s.flash := rfl
@[simp] theorem State.setArith_intHold (x y z : Bool) : (s.setArith x y z).intHold = s.intHold := rfl
@[simp] theorem State.setArith_agent (x y z : Bool) : (s.setArith x y z).agent = s.agent := rfl
@[simp] theorem State.setArith_riPtrBank (x y z : Bool) : (s.setArith x y z).riPtrBank = s.riPtrBank := rfl
@[simp] theorem State.setArith_devicePolicy (x y z : Bool) : (s.setArith x y z).devicePolicy = s.devicePolicy := rfl
@[simp] theorem State.setArith_deviceWrites (x y z : Bool) : (s.setArith x y z).deviceWrites = s.deviceWrites := rfl
@[simp] theorem State.setArith_draws (x y z : Bool) : (s.setArith x y z).draws = s.draws := rfl

/-! ## ramWrite -/

@[simp] theorem State.ramWrite_acc (bank : Nat) (a v : Byte) : (s.ramWrite bank a v).acc = s.acc := rfl
@[simp] theorem State.ramWrite_b (bank : Nat) (a v : Byte) : (s.ramWrite bank a v).b = s.b := rfl
@[simp] theorem State.ramWrite_c (bank : Nat) (a v : Byte) : (s.ramWrite bank a v).c = s.c := rfl
@[simp] theorem State.ramWrite_trl (bank : Nat) (a v : Byte) : (s.ramWrite bank a v).trl = s.trl := rfl
@[simp] theorem State.ramWrite_trh (bank : Nat) (a v : Byte) : (s.ramWrite bank a v).trh = s.trh := rfl
@[simp] theorem State.ramWrite_sp (bank : Nat) (a v : Byte) : (s.ramWrite bank a v).sp = s.sp := rfl
@[simp] theorem State.ramWrite_psw (bank : Nat) (a v : Byte) : (s.ramWrite bank a v).psw = s.psw := rfl
@[simp] theorem State.ramWrite_pc (bank : Nat) (a v : Byte) : (s.ramWrite bank a v).pc = s.pc := rfl
@[simp] theorem State.ramWrite_ram (bank : Nat) (a v : Byte) : (s.ramWrite bank a v).ram =
    Memory.write s.ram (ramKey bank a) v := rfl
@[simp] theorem State.ramWrite_code (bank : Nat) (a v : Byte) : (s.ramWrite bank a v).code = s.code := rfl
@[simp] theorem State.ramWrite_flash (bank : Nat) (a v : Byte) : (s.ramWrite bank a v).flash = s.flash := rfl
@[simp] theorem State.ramWrite_intHold (bank : Nat) (a v : Byte) : (s.ramWrite bank a v).intHold = s.intHold := rfl
@[simp] theorem State.ramWrite_agent (bank : Nat) (a v : Byte) : (s.ramWrite bank a v).agent = s.agent := rfl
@[simp] theorem State.ramWrite_riPtrBank (bank : Nat) (a v : Byte) : (s.ramWrite bank a v).riPtrBank =
    s.riPtrBank := rfl
@[simp] theorem State.ramWrite_devicePolicy (bank : Nat) (a v : Byte) : (s.ramWrite bank a v).devicePolicy =
    s.devicePolicy := rfl
@[simp] theorem State.ramWrite_deviceWrites (bank : Nat) (a v : Byte) : (s.ramWrite bank a v).deviceWrites =
    s.deviceWrites := rfl
@[simp] theorem State.ramWrite_draws (bank : Nat) (a v : Byte) : (s.ramWrite bank a v).draws = s.draws := rfl

/-! ## stackWrite -/

@[simp] theorem State.stackWrite_acc (a v : Byte) : (s.stackWrite a v).acc = s.acc := rfl
@[simp] theorem State.stackWrite_b (a v : Byte) : (s.stackWrite a v).b = s.b := rfl
@[simp] theorem State.stackWrite_c (a v : Byte) : (s.stackWrite a v).c = s.c := rfl
@[simp] theorem State.stackWrite_trl (a v : Byte) : (s.stackWrite a v).trl = s.trl := rfl
@[simp] theorem State.stackWrite_trh (a v : Byte) : (s.stackWrite a v).trh = s.trh := rfl
@[simp] theorem State.stackWrite_sp (a v : Byte) : (s.stackWrite a v).sp = s.sp := rfl
@[simp] theorem State.stackWrite_psw (a v : Byte) : (s.stackWrite a v).psw = s.psw := rfl
@[simp] theorem State.stackWrite_pc (a v : Byte) : (s.stackWrite a v).pc = s.pc := rfl
@[simp] theorem State.stackWrite_ram (a v : Byte) : (s.stackWrite a v).ram =
    Memory.write s.ram (ramKey Config.stackBank a) v := rfl
@[simp] theorem State.stackWrite_code (a v : Byte) : (s.stackWrite a v).code = s.code := rfl
@[simp] theorem State.stackWrite_flash (a v : Byte) : (s.stackWrite a v).flash = s.flash := rfl
@[simp] theorem State.stackWrite_intHold (a v : Byte) : (s.stackWrite a v).intHold = s.intHold := rfl
@[simp] theorem State.stackWrite_agent (a v : Byte) : (s.stackWrite a v).agent = s.agent := rfl
@[simp] theorem State.stackWrite_riPtrBank (a v : Byte) : (s.stackWrite a v).riPtrBank = s.riPtrBank := rfl
@[simp] theorem State.stackWrite_devicePolicy (a v : Byte) : (s.stackWrite a v).devicePolicy = s.devicePolicy := rfl
@[simp] theorem State.stackWrite_deviceWrites (a v : Byte) : (s.stackWrite a v).deviceWrites = s.deviceWrites := rfl
@[simp] theorem State.stackWrite_draws (a v : Byte) : (s.stackWrite a v).draws = s.draws := rfl

/-! ## jumpTo -/

@[simp] theorem State.jumpTo_acc (target : CodeAddr) : (s.jumpTo target).acc = s.acc := rfl
@[simp] theorem State.jumpTo_b (target : CodeAddr) : (s.jumpTo target).b = s.b := rfl
@[simp] theorem State.jumpTo_c (target : CodeAddr) : (s.jumpTo target).c = s.c := rfl
@[simp] theorem State.jumpTo_trl (target : CodeAddr) : (s.jumpTo target).trl = s.trl := rfl
@[simp] theorem State.jumpTo_trh (target : CodeAddr) : (s.jumpTo target).trh = s.trh := rfl
@[simp] theorem State.jumpTo_sp (target : CodeAddr) : (s.jumpTo target).sp = s.sp := rfl
@[simp] theorem State.jumpTo_psw (target : CodeAddr) : (s.jumpTo target).psw = s.psw := rfl
@[simp] theorem State.jumpTo_pc (target : CodeAddr) : (s.jumpTo target).pc = target := rfl
@[simp] theorem State.jumpTo_ram (target : CodeAddr) : (s.jumpTo target).ram = s.ram := rfl
@[simp] theorem State.jumpTo_code (target : CodeAddr) : (s.jumpTo target).code = s.code := rfl
@[simp] theorem State.jumpTo_flash (target : CodeAddr) : (s.jumpTo target).flash = s.flash := rfl
@[simp] theorem State.jumpTo_intHold (target : CodeAddr) : (s.jumpTo target).intHold = s.intHold := rfl
@[simp] theorem State.jumpTo_agent (target : CodeAddr) : (s.jumpTo target).agent = s.agent := rfl
@[simp] theorem State.jumpTo_riPtrBank (target : CodeAddr) : (s.jumpTo target).riPtrBank = s.riPtrBank := rfl
@[simp] theorem State.jumpTo_devicePolicy (target : CodeAddr) : (s.jumpTo target).devicePolicy = s.devicePolicy := rfl
@[simp] theorem State.jumpTo_deviceWrites (target : CodeAddr) : (s.jumpTo target).deviceWrites = s.deviceWrites := rfl
@[simp] theorem State.jumpTo_draws (target : CodeAddr) : (s.jumpTo target).draws = s.draws := rfl

/-! ## advance -/

@[simp] theorem State.advance_acc (len : Nat) : (s.advance len).acc = s.acc := rfl
@[simp] theorem State.advance_b (len : Nat) : (s.advance len).b = s.b := rfl
@[simp] theorem State.advance_c (len : Nat) : (s.advance len).c = s.c := rfl
@[simp] theorem State.advance_trl (len : Nat) : (s.advance len).trl = s.trl := rfl
@[simp] theorem State.advance_trh (len : Nat) : (s.advance len).trh = s.trh := rfl
@[simp] theorem State.advance_sp (len : Nat) : (s.advance len).sp = s.sp := rfl
@[simp] theorem State.advance_psw (len : Nat) : (s.advance len).psw = s.psw := rfl
@[simp] theorem State.advance_pc (len : Nat) : (s.advance len).pc = s.following len := rfl
@[simp] theorem State.advance_ram (len : Nat) : (s.advance len).ram = s.ram := rfl
@[simp] theorem State.advance_code (len : Nat) : (s.advance len).code = s.code := rfl
@[simp] theorem State.advance_flash (len : Nat) : (s.advance len).flash = s.flash := rfl
@[simp] theorem State.advance_intHold (len : Nat) : (s.advance len).intHold = s.intHold := rfl
@[simp] theorem State.advance_agent (len : Nat) : (s.advance len).agent = s.agent := rfl
@[simp] theorem State.advance_riPtrBank (len : Nat) : (s.advance len).riPtrBank = s.riPtrBank := rfl
@[simp] theorem State.advance_devicePolicy (len : Nat) : (s.advance len).devicePolicy = s.devicePolicy := rfl
@[simp] theorem State.advance_deviceWrites (len : Nat) : (s.advance len).deviceWrites = s.deviceWrites := rfl
@[simp] theorem State.advance_draws (len : Nat) : (s.advance len).draws = s.draws := rfl

/-! ## branchIf -/

@[simp] theorem State.branchIf_acc (taken : Bool) (len : Nat) (r : Byte) : (s.branchIf taken len r).acc = s.acc := rfl
@[simp] theorem State.branchIf_b (taken : Bool) (len : Nat) (r : Byte) : (s.branchIf taken len r).b = s.b := rfl
@[simp] theorem State.branchIf_c (taken : Bool) (len : Nat) (r : Byte) : (s.branchIf taken len r).c = s.c := rfl
@[simp] theorem State.branchIf_trl (taken : Bool) (len : Nat) (r : Byte) : (s.branchIf taken len r).trl = s.trl := rfl
@[simp] theorem State.branchIf_trh (taken : Bool) (len : Nat) (r : Byte) : (s.branchIf taken len r).trh = s.trh := rfl
@[simp] theorem State.branchIf_sp (taken : Bool) (len : Nat) (r : Byte) : (s.branchIf taken len r).sp = s.sp := rfl
@[simp] theorem State.branchIf_psw (taken : Bool) (len : Nat) (r : Byte) : (s.branchIf taken len r).psw = s.psw := rfl
@[simp] theorem State.branchIf_pc (taken : Bool) (len : Nat) (r : Byte) : (s.branchIf taken len r).pc =
    if taken then rel8 (s.following len) r else s.following len := rfl
@[simp] theorem State.branchIf_ram (taken : Bool) (len : Nat) (r : Byte) : (s.branchIf taken len r).ram = s.ram := rfl
@[simp] theorem State.branchIf_code (taken : Bool) (len : Nat) (r : Byte) : (s.branchIf taken len r).code =
    s.code := rfl
@[simp] theorem State.branchIf_flash (taken : Bool) (len : Nat) (r : Byte) : (s.branchIf taken len r).flash =
    s.flash := rfl
@[simp] theorem State.branchIf_intHold (taken : Bool) (len : Nat) (r : Byte) : (s.branchIf taken len r).intHold =
    s.intHold := rfl
@[simp] theorem State.branchIf_agent (taken : Bool) (len : Nat) (r : Byte) : (s.branchIf taken len r).agent =
    s.agent := rfl
@[simp] theorem State.branchIf_riPtrBank (taken : Bool) (len : Nat) (r : Byte) : (s.branchIf taken len r).riPtrBank =
    s.riPtrBank := rfl
@[simp] theorem State.branchIf_devicePolicy (taken : Bool) (len : Nat) (r : Byte) : (s.branchIf taken len r).devicePolicy =
    s.devicePolicy := rfl
@[simp] theorem State.branchIf_deviceWrites (taken : Bool) (len : Nat) (r : Byte) : (s.branchIf taken len r).deviceWrites =
    s.deviceWrites := rfl
@[simp] theorem State.branchIf_draws (taken : Bool) (len : Nat) (r : Byte) : (s.branchIf taken len r).draws =
    s.draws := rfl

/-! ## push -/

@[simp] theorem State.push_acc (v : Byte) : (s.push v).acc = s.acc := rfl
@[simp] theorem State.push_b (v : Byte) : (s.push v).b = s.b := rfl
@[simp] theorem State.push_c (v : Byte) : (s.push v).c = s.c := rfl
@[simp] theorem State.push_trl (v : Byte) : (s.push v).trl = s.trl := rfl
@[simp] theorem State.push_trh (v : Byte) : (s.push v).trh = s.trh := rfl
@[simp] theorem State.push_sp (v : Byte) : (s.push v).sp = s.sp + 1#8 := rfl
@[simp] theorem State.push_psw (v : Byte) : (s.push v).psw = s.psw := rfl
@[simp] theorem State.push_pc (v : Byte) : (s.push v).pc = s.pc := rfl
@[simp] theorem State.push_ram (v : Byte) : (s.push v).ram =
    Memory.write s.ram (ramKey Config.stackBank (s.sp + 1#8)) v := rfl
@[simp] theorem State.push_code (v : Byte) : (s.push v).code = s.code := rfl
@[simp] theorem State.push_flash (v : Byte) : (s.push v).flash = s.flash := rfl
@[simp] theorem State.push_intHold (v : Byte) : (s.push v).intHold = s.intHold := rfl
@[simp] theorem State.push_agent (v : Byte) : (s.push v).agent = s.agent := rfl
@[simp] theorem State.push_riPtrBank (v : Byte) : (s.push v).riPtrBank = s.riPtrBank := rfl
@[simp] theorem State.push_devicePolicy (v : Byte) : (s.push v).devicePolicy = s.devicePolicy := rfl
@[simp] theorem State.push_deviceWrites (v : Byte) : (s.push v).deviceWrites = s.deviceWrites := rfl
@[simp] theorem State.push_draws (v : Byte) : (s.push v).draws = s.draws := rfl

/-! ## pushAddr -/

@[simp] theorem State.pushAddr_acc (w : CodeAddr) : (s.pushAddr w).acc = s.acc := rfl
@[simp] theorem State.pushAddr_b (w : CodeAddr) : (s.pushAddr w).b = s.b := rfl
@[simp] theorem State.pushAddr_c (w : CodeAddr) : (s.pushAddr w).c = s.c := rfl
@[simp] theorem State.pushAddr_trl (w : CodeAddr) : (s.pushAddr w).trl = s.trl := rfl
@[simp] theorem State.pushAddr_trh (w : CodeAddr) : (s.pushAddr w).trh = s.trh := rfl
@[simp] theorem State.pushAddr_sp (w : CodeAddr) : (s.pushAddr w).sp = s.sp + 1#8 + 1#8 := rfl
@[simp] theorem State.pushAddr_psw (w : CodeAddr) : (s.pushAddr w).psw = s.psw := rfl
@[simp] theorem State.pushAddr_pc (w : CodeAddr) : (s.pushAddr w).pc = s.pc := rfl
@[simp] theorem State.pushAddr_ram (w : CodeAddr) : (s.pushAddr w).ram =
    Memory.write (Memory.write s.ram (ramKey Config.stackBank (s.sp + 1#8)) (lowByte w))
      (ramKey Config.stackBank (s.sp + 1#8 + 1#8)) (highByte w) := rfl
@[simp] theorem State.pushAddr_code (w : CodeAddr) : (s.pushAddr w).code = s.code := rfl
@[simp] theorem State.pushAddr_flash (w : CodeAddr) : (s.pushAddr w).flash = s.flash := rfl
@[simp] theorem State.pushAddr_intHold (w : CodeAddr) : (s.pushAddr w).intHold = s.intHold := rfl
@[simp] theorem State.pushAddr_agent (w : CodeAddr) : (s.pushAddr w).agent = s.agent := rfl
@[simp] theorem State.pushAddr_riPtrBank (w : CodeAddr) : (s.pushAddr w).riPtrBank = s.riPtrBank := rfl
@[simp] theorem State.pushAddr_devicePolicy (w : CodeAddr) : (s.pushAddr w).devicePolicy = s.devicePolicy := rfl
@[simp] theorem State.pushAddr_deviceWrites (w : CodeAddr) : (s.pushAddr w).deviceWrites = s.deviceWrites := rfl
@[simp] theorem State.pushAddr_draws (w : CodeAddr) : (s.pushAddr w).draws = s.draws := rfl

/-! ## takeInterrupt -/

@[simp] theorem State.takeInterrupt_acc (vector : CodeAddr) : (s.takeInterrupt vector).acc = s.acc := rfl
@[simp] theorem State.takeInterrupt_b (vector : CodeAddr) : (s.takeInterrupt vector).b = s.b := rfl
@[simp] theorem State.takeInterrupt_c (vector : CodeAddr) : (s.takeInterrupt vector).c = s.c := rfl
@[simp] theorem State.takeInterrupt_trl (vector : CodeAddr) : (s.takeInterrupt vector).trl = s.trl := rfl
@[simp] theorem State.takeInterrupt_trh (vector : CodeAddr) : (s.takeInterrupt vector).trh = s.trh := rfl
@[simp] theorem State.takeInterrupt_sp (vector : CodeAddr) : (s.takeInterrupt vector).sp = s.sp + 1#8 + 1#8 := rfl
@[simp] theorem State.takeInterrupt_psw (vector : CodeAddr) : (s.takeInterrupt vector).psw = s.psw := rfl
@[simp] theorem State.takeInterrupt_pc (vector : CodeAddr) : (s.takeInterrupt vector).pc = vector := rfl
@[simp] theorem State.takeInterrupt_ram (vector : CodeAddr) : (s.takeInterrupt vector).ram =
    (s.pushAddr s.pc).ram := rfl
@[simp] theorem State.takeInterrupt_code (vector : CodeAddr) : (s.takeInterrupt vector).code = s.code := rfl
@[simp] theorem State.takeInterrupt_flash (vector : CodeAddr) : (s.takeInterrupt vector).flash = s.flash := rfl
@[simp] theorem State.takeInterrupt_intHold (vector : CodeAddr) : (s.takeInterrupt vector).intHold = true := rfl
@[simp] theorem State.takeInterrupt_agent (vector : CodeAddr) : (s.takeInterrupt vector).agent = s.agent := rfl
@[simp] theorem State.takeInterrupt_riPtrBank (vector : CodeAddr) : (s.takeInterrupt vector).riPtrBank =
    s.riPtrBank := rfl
@[simp] theorem State.takeInterrupt_devicePolicy (vector : CodeAddr) : (s.takeInterrupt vector).devicePolicy =
    s.devicePolicy := rfl
@[simp] theorem State.takeInterrupt_deviceWrites (vector : CodeAddr) : (s.takeInterrupt vector).deviceWrites =
    s.deviceWrites := rfl
@[simp] theorem State.takeInterrupt_draws (vector : CodeAddr) : (s.takeInterrupt vector).draws = s.draws := rfl

/-! ## tick -/

@[simp] theorem State.tick_acc : (s.tick).acc = s.acc := rfl
@[simp] theorem State.tick_b : (s.tick).b = s.b := rfl
@[simp] theorem State.tick_c : (s.tick).c = s.c := rfl
@[simp] theorem State.tick_trl : (s.tick).trl = s.trl := rfl
@[simp] theorem State.tick_trh : (s.tick).trh = s.trh := rfl
@[simp] theorem State.tick_sp : (s.tick).sp = s.sp := rfl
@[simp] theorem State.tick_psw : (s.tick).psw = s.psw := rfl
@[simp] theorem State.tick_pc : (s.tick).pc = s.pc := rfl
@[simp] theorem State.tick_ram : (s.tick).ram = s.ram := rfl
@[simp] theorem State.tick_code : (s.tick).code = s.code := rfl
@[simp] theorem State.tick_flash : (s.tick).flash = s.flash := rfl
@[simp] theorem State.tick_intHold : (s.tick).intHold = s.intHold := rfl
@[simp] theorem State.tick_agent : (s.tick).agent = s.agent := rfl
@[simp] theorem State.tick_riPtrBank : (s.tick).riPtrBank = s.riPtrBank := rfl
@[simp] theorem State.tick_devicePolicy : (s.tick).devicePolicy = s.devicePolicy := rfl
@[simp] theorem State.tick_deviceWrites : (s.tick).deviceWrites = s.deviceWrites := rfl
@[simp] theorem State.tick_draws : (s.tick).draws = s.draws + 1 := rfl

/-! ## loadAtPc -/

@[simp] theorem State.loadAtPc_acc (bytes : List Byte) : (s.loadAtPc bytes).acc = s.acc := rfl
@[simp] theorem State.loadAtPc_b (bytes : List Byte) : (s.loadAtPc bytes).b = s.b := rfl
@[simp] theorem State.loadAtPc_c (bytes : List Byte) : (s.loadAtPc bytes).c = s.c := rfl
@[simp] theorem State.loadAtPc_trl (bytes : List Byte) : (s.loadAtPc bytes).trl = s.trl := rfl
@[simp] theorem State.loadAtPc_trh (bytes : List Byte) : (s.loadAtPc bytes).trh = s.trh := rfl
@[simp] theorem State.loadAtPc_sp (bytes : List Byte) : (s.loadAtPc bytes).sp = s.sp := rfl
@[simp] theorem State.loadAtPc_psw (bytes : List Byte) : (s.loadAtPc bytes).psw = s.psw := rfl
@[simp] theorem State.loadAtPc_pc (bytes : List Byte) : (s.loadAtPc bytes).pc = s.pc := rfl
@[simp] theorem State.loadAtPc_ram (bytes : List Byte) : (s.loadAtPc bytes).ram = s.ram := rfl
@[simp] theorem State.loadAtPc_code (bytes : List Byte) : (s.loadAtPc bytes).code =
    placeBytes s.code s.pc bytes := rfl
@[simp] theorem State.loadAtPc_flash (bytes : List Byte) : (s.loadAtPc bytes).flash = s.flash := rfl
@[simp] theorem State.loadAtPc_intHold (bytes : List Byte) : (s.loadAtPc bytes).intHold = s.intHold := rfl
@[simp] theorem State.loadAtPc_agent (bytes : List Byte) : (s.loadAtPc bytes).agent = [] := rfl
@[simp] theorem State.loadAtPc_riPtrBank (bytes : List Byte) : (s.loadAtPc bytes).riPtrBank = s.riPtrBank := rfl
@[simp] theorem State.loadAtPc_devicePolicy (bytes : List Byte) : (s.loadAtPc bytes).devicePolicy =
    s.devicePolicy := rfl
@[simp] theorem State.loadAtPc_deviceWrites (bytes : List Byte) : (s.loadAtPc bytes).deviceWrites =
    s.deviceWrites := rfl
@[simp] theorem State.loadAtPc_draws (bytes : List Byte) : (s.loadAtPc bytes).draws = s.draws := rfl

end Sys2Proof.Machine
end

