-- ==== Sys2Proof/Laws/Ops.lean ====
section
/-! SUPPORT. One lemma for each shared operation, saying once everything it can do: proofs cite these and do not unfold
the operations. -/

namespace Sys2Proof.Machine

/-! ## Sequencing -/

section
variable {α β : Type} {r : Result α} {k : α → Result β}

@[simp] theorem onValue_next (v : α) : onValue (.next v) k = k v := rfl

@[simp] theorem onValue_fault (f : Fault) : onValue (.fault f) k = .fault f := rfl

@[simp] theorem onValue_refused (f : Refusal) : onValue (.refused f) k = .refused f := rfl

/-- What goes on does so with a value. -/
theorem onValue_eq_next {t : β} : onValue r k = .next t ↔ ∃ v, r = .next v ∧ k v = .next t := by
  cases r <;> simp

/-- A fault is that of the first operation or that of the second. -/
theorem onValue_eq_fault {f : Fault} :
    onValue r k = .fault f ↔ r = .fault f ∨ ∃ v, r = .next v ∧ k v = .fault f := by
  cases r <;> simp

/-- A refusal is that of the first operation or that of the second. -/
theorem onValue_eq_refused {f : Refusal} :
    onValue r k = .refused f ↔ r = .refused f ∨ ∃ v, r = .next v ∧ k v = .refused f := by
  cases r <;> simp

end

/-! ## Bits of a byte -/

/-- Every bit of `withBit v n x`: bit `n` is `x`, the others are those of `v`. -/
theorem getLsbD_withBit (v : Byte) (n m : Nat) (x : Bool) (h : n < 8) :
    (withBit v n x).getLsbD m = if m = n then x else v.getLsbD m := by
  by_cases hm : m < 8
  · cases x <;> by_cases e : m = n <;>
      simp [withBit, BitVec.getLsbD_shiftLeft, e, hm] <;> omega
  · have h1 : (withBit v n x).getLsbD m = false := BitVec.getLsbD_of_ge _ _ (by omega)
    have h2 : v.getLsbD m = false := BitVec.getLsbD_of_ge _ _ (by omega)
    rw [h1, h2, if_neg (by omega)]

/-! ## RAM, stack, code -/

section
variable {s t : State}

theorem State.ramRead_eq_next {bank : Nat} {a v : Byte} :
    s.ramRead bank a = .next v ↔ Memory.read s.ram (ramKey bank a) = some v := by
  unfold State.ramRead
  cases Memory.read s.ram (ramKey bank a) <;> simp

/-- A RAM read faults when nothing has written the cell, and only then. -/
theorem State.ramRead_eq_fault {bank : Nat} {a : Byte} {f : Fault} :
    s.ramRead bank a = .fault f ↔ Memory.read s.ram (ramKey bank a) = none ∧ f = .unsetRam bank a := by
  unfold State.ramRead
  cases Memory.read s.ram (ramKey bank a) <;> simp [eq_comm]

@[simp] theorem State.ramRead_ne_refused {bank : Nat} {a : Byte} {f : Refusal} : s.ramRead bank a ≠ .refused f := by
  unfold State.ramRead
  cases Memory.read s.ram (ramKey bank a) <;> simp

theorem State.stackRead_eq_next {p v : Byte} :
    s.stackRead p = .next v ↔ Memory.read s.ram (ramKey Config.stackBank p) = some v := State.ramRead_eq_next

theorem State.codeRead_eq_next {a : CodeAddr} {v : Byte} :
    s.codeRead a = .next v ↔ Memory.read s.code a.toNat = some v := by
  unfold State.codeRead
  cases Memory.read s.code a.toNat <;> simp

/-- A code read is refused when the image does not cover the cell, and only then. -/
theorem State.codeRead_eq_refused {a : CodeAddr} {f : Refusal} :
    s.codeRead a = .refused f ↔ Memory.read s.code a.toNat = none ∧ f = .codeNotCovered a := by
  unfold State.codeRead
  cases Memory.read s.code a.toNat <;> simp [eq_comm]

@[simp] theorem State.codeRead_ne_fault {a : CodeAddr} {f : Fault} : s.codeRead a ≠ .fault f := by
  unfold State.codeRead
  cases Memory.read s.code a.toNat <;> simp

/-! ## The data space -/

/-- The map of the data space, case by case. -/
theorem cellAt_cases (a : DataAddr) :
    (a.toNat < 256 ∧ cellAt a = .ram (a.setWidth 8)) ∨ (∃ r, cellAt a = .reg r ∧ 256 ≤ a.toNat ∧ a.toNat ≤ 262)
      ∨ (263 ≤ a.toNat ∧ cellAt a = .device) := by
  unfold cellAt
  by_cases h : a.toNat < Config.bankSize
  · exact .inl ⟨h, if_pos h⟩
  · rw [if_neg h]
    simp only [Config.bankSize, Nat.not_lt] at h
    repeat' split
    all_goals first
      | (right; left; subst_vars; exact ⟨_, rfl, by decide, by decide⟩)
      | skip
    right; right
    refine ⟨?_, rfl⟩
    simp only [Config.addrAcc, Config.addrPsw, Config.addrB, Config.addrC, Config.addrTrl, Config.addrTrh,
      Config.addrSp, BitVec.toNat_eq, BitVec.toNat_ofNat] at *
    omega

/-- What a data read that answers a value does. -/
theorem State.dataRead_eq_next {a : DataAddr} {v : Byte} :
    s.dataRead a = .next v ↔
      (∃ cell, cellAt a = .ram cell ∧ Memory.read s.ram (ramKey s.ramBank cell) = some v)
        ∨ (∃ r, cellAt a = .reg r ∧ v = s.regRead r)
        ∨ (cellAt a = .device ∧ s.devicePolicy = .oracle ∧ v = Config.deviceRead s.draws a) := by
  unfold State.dataRead
  cases cellAt a
  · simp [State.ramRead_eq_next]
  · simp [eq_comm]
  · simp only [State.deviceRead]
    cases s.devicePolicy <;> simp [eq_comm]

/-- What a data write that answers a state does. -/
theorem State.dataWrite_eq_next {a : DataAddr} {v : Byte} :
    s.dataWrite a v = .next t ↔
      (∃ cell, cellAt a = .ram cell ∧ t = s.ramWrite s.ramBank cell v)
        ∨ (∃ r, cellAt a = .reg r ∧ t = s.regWrite r v)
        ∨ (cellAt a = .device ∧ s.devicePolicy = .oracle
            ∧ t = { s with deviceWrites := s.deviceWrites ++ [(a, v)] }) := by
  unfold State.dataWrite
  cases cellAt a
  · simp [eq_comm]
  · simp [eq_comm]
  · simp only [State.deviceWrite]
    cases s.devicePolicy <;> simp [eq_comm]

/-- A data read is refused only in the device region under the policy `refuse`. -/
theorem State.dataRead_eq_refused {a : DataAddr} {f : Refusal} :
    s.dataRead a = .refused f ↔ cellAt a = .device ∧ s.devicePolicy = .refuse ∧ f = .deviceRegion a := by
  unfold State.dataRead
  cases cellAt a
  · simp
  · simp
  · simp only [State.deviceRead]
    cases s.devicePolicy <;> simp [eq_comm]

/-- A data read faults only at a RAM cell that nothing has written. -/
theorem State.dataRead_eq_fault {a : DataAddr} {f : Fault} :
    s.dataRead a = .fault f ↔
      ∃ cell, cellAt a = .ram cell ∧ Memory.read s.ram (ramKey s.ramBank cell) = none ∧ f = .unsetRam s.ramBank cell := by
  unfold State.dataRead
  cases cellAt a
  · simp [State.ramRead_eq_fault]
  · simp
  · simp only [State.deviceRead]
    cases s.devicePolicy <;> simp

/-- A data write is refused exactly where a data read is. -/
theorem State.dataWrite_eq_refused {a : DataAddr} {v : Byte} {f : Refusal} :
    s.dataWrite a v = .refused f ↔ cellAt a = .device ∧ s.devicePolicy = .refuse ∧ f = .deviceRegion a := by
  unfold State.dataWrite
  cases cellAt a
  · simp
  · simp
  · simp only [State.deviceWrite]
    cases s.devicePolicy <;> simp [eq_comm]

@[simp] theorem State.dataWrite_ne_fault {a : DataAddr} {v : Byte} {f : Fault} : s.dataWrite a v ≠ .fault f := by
  unfold State.dataWrite
  cases cellAt a
  · simp
  · simp
  · simp only [State.deviceWrite]
    cases s.devicePolicy <;> simp

/-- Where a data read answers, a data write answers. -/
theorem State.dataWrite_of_dataRead {a : DataAddr} {v : Byte} (w : Byte) (h : s.dataRead a = .next v) :
    ∃ t, s.dataWrite a w = .next t := by
  unfold State.dataWrite
  rcases State.dataRead_eq_next.1 h with ⟨cell, hc, -⟩ | ⟨r, hc, -⟩ | ⟨hc, hp, -⟩
  · exact ⟨_, by rw [hc]⟩
  · exact ⟨_, by rw [hc]⟩
  · exact ⟨_, by rw [hc]; simp only [State.deviceWrite, hp]; rfl⟩

/-- What a data write leaves alone wherever it goes: the program counter, the code and flash spaces, `int_hold`, the
launch parameters and the number of the next draw. -/
theorem State.dataWrite_frame {a : DataAddr} {v : Byte} (h : s.dataWrite a v = .next t) :
    t.pc = s.pc ∧ t.code = s.code ∧ t.flash = s.flash ∧ t.intHold = s.intHold ∧ t.agent = s.agent
      ∧ t.riPtrBank = s.riPtrBank ∧ t.devicePolicy = s.devicePolicy ∧ t.draws = s.draws := by
  rcases State.dataWrite_eq_next.1 h with ⟨cell, -, rfl⟩ | ⟨r, -, rfl⟩ | ⟨-, -, rfl⟩
  · simp
  · cases r <;> simp [State.regWrite]
  · simp

/-! ## Operands -/

/-- What resolving `@Ri` does when it answers an address. -/
theorem State.indAddr_eq_next {i : IndReg} {ea : DataAddr} :
    s.indAddr i = .next ea ↔
      ∃ pointer, Memory.read s.ram (ramKey s.pointerBank (s.pointerCell i)) = some pointer
        ∧ ea = i.extractLsb' 1 1 ++ pointer := by
  simp only [State.indAddr, onValue_eq_next, State.ramRead_eq_next, Host.Outcome.next.injEq]
  exact exists_congr fun _ => and_congr_right fun _ => eq_comm

/-- Resolving `@Ri` is never refused. -/
@[simp] theorem State.indAddr_ne_refused {i : IndReg} {f : Refusal} : s.indAddr i ≠ .refused f := by
  simp [State.indAddr, onValue_eq_refused]

/-- The value of an `@Ri` operand is that of the cell it denotes. -/
theorem State.indValue_eq_next {i : IndReg} {v : Byte} :
    s.indValue i = .next v ↔ ∃ ea, s.indAddr i = .next ea ∧ s.dataRead ea = .next v := onValue_eq_next

/-- What changing a cell in place does. -/
theorem State.modifyCell_eq_next {ea : DataAddr} {f : Byte → Byte} {len : Nat} :
    s.modifyCell ea f len = .next t ↔
      ∃ v u, s.dataRead ea = .next v ∧ s.dataWrite ea (f v) = .next u ∧ t = u.advance len := by
  simp only [State.modifyCell, onValue_eq_next, Host.Outcome.next.injEq]
  constructor
  · rintro ⟨v, hv, u, hu, rfl⟩
    exact ⟨v, u, hv, hu, rfl⟩
  · rintro ⟨v, u, hv, hu, rfl⟩
    exact ⟨v, hv, u, hu, rfl⟩

/-! ## The stack -/

/-- What popping one byte does. -/
theorem State.pop_eq_next {p : Byte × State} :
    s.pop = .next p ↔
      Memory.read s.ram (ramKey Config.stackBank s.sp) = some p.1 ∧ p.2 = { s with sp := s.sp - 1#8 } := by
  obtain ⟨v, u⟩ := p
  simp only [State.pop, onValue_eq_next, State.stackRead_eq_next, Host.Outcome.next.injEq, Prod.mk.injEq]
  constructor
  · rintro ⟨w, hw, rfl, rfl⟩
    exact ⟨hw, rfl⟩
  · rintro ⟨hv, rfl⟩
    exact ⟨v, hv, rfl, rfl⟩

/-- What popping `pc` does: the high byte is the cell at `sp`, the low byte the cell below it. -/
theorem State.popPc_eq_next :
    s.popPc = .next t ↔
      ∃ high low, Memory.read s.ram (ramKey Config.stackBank s.sp) = some high
        ∧ Memory.read s.ram (ramKey Config.stackBank (s.sp - 1#8)) = some low
        ∧ t = { s with sp := s.sp - 1#8 - 1#8, pc := high ++ low } := by
  simp only [State.popPc, onValue_eq_next, State.pop_eq_next, Host.Outcome.next.injEq]
  constructor
  · rintro ⟨⟨h, u⟩, ⟨hh, rfl⟩, ⟨l, w⟩, ⟨hl, rfl⟩, rfl⟩
    exact ⟨h, l, hh, hl, rfl⟩
  · rintro ⟨h, l, hh, hl, rfl⟩
    exact ⟨⟨h, _⟩, ⟨hh, rfl⟩, ⟨l, _⟩, ⟨hl, rfl⟩, rfl⟩

/-- What returning from an interrupt does. -/
theorem State.returnFromInterrupt_eq_next :
    s.returnFromInterrupt = .next t ↔ ∃ u, s.popPc = .next u ∧ t = { u with intHold := false } := by
  simp only [State.returnFromInterrupt, onValue_eq_next, Host.Outcome.next.injEq]
  exact exists_congr fun _ => and_congr_right fun _ => eq_comm

/-! ## The canonical form of RAM -/

theorem State.ramWrite_ram_wf {bank : Nat} (a v : Byte) (hb : bank < Config.ramBanks)
    (h : Memory.wf (Config.ramBanks * Config.bankSize) s.ram = true) :
    Memory.wf (Config.ramBanks * Config.bankSize) (s.ramWrite bank a v).ram = true :=
  Memory.wf_write v h (ramKey_lt a hb)

theorem State.push_ram_wf (v : Byte) (h : Memory.wf (Config.ramBanks * Config.bankSize) s.ram = true) :
    Memory.wf (Config.ramBanks * Config.bankSize) (s.push v).ram = true :=
  Memory.wf_write v h (ramKey_lt _ (by decide))

theorem State.pushAddr_ram_wf (w : CodeAddr) (h : Memory.wf (Config.ramBanks * Config.bankSize) s.ram = true) :
    Memory.wf (Config.ramBanks * Config.bankSize) (s.pushAddr w).ram = true :=
  State.push_ram_wf (s := s.push (lowByte w)) _ (State.push_ram_wf _ h)

/-- A data write keeps the canonical form of RAM. -/
theorem State.dataWrite_ram_wf {a : DataAddr} {v : Byte} (hw : s.dataWrite a v = .next t)
    (h : Memory.wf (Config.ramBanks * Config.bankSize) s.ram = true) :
    Memory.wf (Config.ramBanks * Config.bankSize) t.ram = true := by
  rcases State.dataWrite_eq_next.1 hw with ⟨cell, -, rfl⟩ | ⟨r, -, rfl⟩ | ⟨-, -, rfl⟩
  · exact State.ramWrite_ram_wf _ _ s.ramBank_lt h
  · cases r <;> exact h
  · exact h

end

end Sys2Proof.Machine
end

