-- ==== Sys2Proof/Laws/PerInstr.lean ====
section
/-! SUPPORT. The family `EncodeLength`: a statement about every instruction as syntax, one lemma per constructor. -/

set_option Elab.async false

namespace Sys2Proof.Laws

/-- The length `instrLength` reads from the first byte of an instruction's encoding is the number of its bytes
(`30_encoding.md` R50, R56). -/
def EncodeLength.Statement (i : Instr) : Prop :=
  ((encode i).head?.map instrLength) = some (encode i).length

theorem EncodeLength.of_first {i : Instr} (b0 : Byte) (rest : List Byte) (he : encode i = b0 :: rest)
    (hl : instrLength b0 = rest.length + 1) : EncodeLength.Statement i := by
  simp [EncodeLength.Statement, he, hl]

/-! The length of the first bytes of each format. -/

theorem EncodeLength.length_direct_two : ∀ op ∈ ([
    0b0000001#7, 0b0001001#7, 0b0110000#7, 0b0110001#7, 0b0111000#7, 0b0111001#7, 0b1000001#7, 0b1001001#7,
     0b1010001#7, 0b1011001#7, 0b1100001#7, 0b1101001#7, 0b1110001#7, 0b1111001#7] : List (BitVec 7)),
    ∀ x : BitVec 1, instrLength (op ++ x) = 2 := by decide +kernel

theorem EncodeLength.length_indirect_one : ∀ op ∈ ([
    0b000001#6, 0b000101#6, 0b011001#6, 0b011101#6, 0b100001#6, 0b100101#6, 0b101001#6, 0b101101#6,
     0b110001#6, 0b110101#6, 0b111001#6, 0b111101#6] : List (BitVec 6)),
    ∀ k : IndReg, instrLength (op ++ k) = 1 := by decide +kernel

theorem EncodeLength.length_bit_two : ∀ op ∈ ([
    0b000#3, 0b001#3, 0b101#3, 0b110#3, 0b111#3] : List (BitVec 3)),
    ∀ (x : BitVec 1) (n : BitNum), instrLength (op ++ x ++ 0b1#1 ++ n) = 2 := by decide +kernel

theorem EncodeLength.length_direct_three : ∀ op ∈ ([
    0b0010001#7, 0b0011001#7, 0b0100001#7, 0b0101001#7] : List (BitVec 7)),
    ∀ x : BitVec 1, instrLength (op ++ x) = 3 := by decide +kernel

theorem EncodeLength.length_indirect_two : ∀ op ∈ ([
    0b001001#6, 0b010101#6] : List (BitVec 6)),
    ∀ k : IndReg, instrLength (op ++ k) = 2 := by decide +kernel

theorem EncodeLength.length_bit_three : ∀ op ∈ ([
    0b010#3, 0b011#3, 0b100#3] : List (BitVec 3)),
    ∀ (x : BitVec 1) (n : BitNum), instrLength (op ++ x ++ 0b1#1 ++ n) = 3 := by decide +kernel

theorem EncodeLength.length_indirect_three : ∀ op ∈ ([
    0b001101#6, 0b010001#6] : List (BitVec 6)),
    ∀ k : IndReg, instrLength (op ++ k) = 3 := by decide +kernel

theorem EncodeLength.length_fixed_1 : ∀ b0 ∈ ([
    0b00110000#8, 0b01000000#8, 0b11100000#8, 0b11110000#8, 0b11000000#8, 0b11010000#8, 0b11000001#8,
     0b01010000#8, 0b01010001#8, 0b10100000#8, 0b10110000#8, 0b00000000#8] : List Byte), instrLength b0 = 1 := by decide +kernel

theorem EncodeLength.length_fixed_2 : ∀ b0 ∈ ([
    0b10000001#8, 0b10010001#8, 0b10100001#8, 0b10110001#8, 0b11100001#8, 0b11010001#8, 0b11110001#8,
     0b00000001#8, 0b10000000#8, 0b10010000#8] : List Byte), instrLength b0 = 2 := by decide +kernel

theorem EncodeLength.length_fixed_3 : ∀ b0 ∈ ([
    0b00100001#8, 0b00010001#8, 0b00110001#8, 0b01000001#8, 0b00100000#8, 0b00010000#8] : List Byte), instrLength b0 = 3 := by decide +kernel

/-! One lemma per constructor. -/

theorem EncodeLength.addImm (v : Byte) : EncodeLength.Statement (.addImm v) :=
  EncodeLength.of_first _ _ rfl (EncodeLength.length_fixed_2 _ (by decide +kernel))

theorem EncodeLength.addDir (d : DataAddr) : EncodeLength.Statement (.addDir d) :=
  EncodeLength.of_first _ _ rfl (EncodeLength.length_direct_two _ (by decide +kernel) _)

theorem EncodeLength.addInd (k : IndReg) : EncodeLength.Statement (.addInd k) :=
  EncodeLength.of_first _ _ rfl (EncodeLength.length_indirect_one _ (by decide +kernel) _)

theorem EncodeLength.addcImm (v : Byte) : EncodeLength.Statement (.addcImm v) :=
  EncodeLength.of_first _ _ rfl (EncodeLength.length_fixed_2 _ (by decide +kernel))

theorem EncodeLength.addcDir (d : DataAddr) : EncodeLength.Statement (.addcDir d) :=
  EncodeLength.of_first _ _ rfl (EncodeLength.length_direct_two _ (by decide +kernel) _)

theorem EncodeLength.addcInd (k : IndReg) : EncodeLength.Statement (.addcInd k) :=
  EncodeLength.of_first _ _ rfl (EncodeLength.length_indirect_one _ (by decide +kernel) _)

theorem EncodeLength.subImm (v : Byte) : EncodeLength.Statement (.subImm v) :=
  EncodeLength.of_first _ _ rfl (EncodeLength.length_fixed_2 _ (by decide +kernel))

theorem EncodeLength.subDir (d : DataAddr) : EncodeLength.Statement (.subDir d) :=
  EncodeLength.of_first _ _ rfl (EncodeLength.length_direct_two _ (by decide +kernel) _)

theorem EncodeLength.subInd (k : IndReg) : EncodeLength.Statement (.subInd k) :=
  EncodeLength.of_first _ _ rfl (EncodeLength.length_indirect_one _ (by decide +kernel) _)

theorem EncodeLength.subcImm (v : Byte) : EncodeLength.Statement (.subcImm v) :=
  EncodeLength.of_first _ _ rfl (EncodeLength.length_fixed_2 _ (by decide +kernel))

theorem EncodeLength.subcDir (d : DataAddr) : EncodeLength.Statement (.subcDir d) :=
  EncodeLength.of_first _ _ rfl (EncodeLength.length_direct_two _ (by decide +kernel) _)

theorem EncodeLength.subcInd (k : IndReg) : EncodeLength.Statement (.subcInd k) :=
  EncodeLength.of_first _ _ rfl (EncodeLength.length_indirect_one _ (by decide +kernel) _)

theorem EncodeLength.incDir (d : DataAddr) : EncodeLength.Statement (.incDir d) :=
  EncodeLength.of_first _ _ rfl (EncodeLength.length_direct_two _ (by decide +kernel) _)

theorem EncodeLength.incInd (k : IndReg) : EncodeLength.Statement (.incInd k) :=
  EncodeLength.of_first _ _ rfl (EncodeLength.length_indirect_one _ (by decide +kernel) _)

theorem EncodeLength.decDir (d : DataAddr) : EncodeLength.Statement (.decDir d) :=
  EncodeLength.of_first _ _ rfl (EncodeLength.length_direct_two _ (by decide +kernel) _)

theorem EncodeLength.decInd (k : IndReg) : EncodeLength.Statement (.decInd k) :=
  EncodeLength.of_first _ _ rfl (EncodeLength.length_indirect_one _ (by decide +kernel) _)

theorem EncodeLength.mul : EncodeLength.Statement .mul :=
  EncodeLength.of_first _ _ rfl (EncodeLength.length_fixed_1 _ (by decide +kernel))

theorem EncodeLength.div : EncodeLength.Statement .div :=
  EncodeLength.of_first _ _ rfl (EncodeLength.length_fixed_1 _ (by decide +kernel))

theorem EncodeLength.andImm (v : Byte) : EncodeLength.Statement (.andImm v) :=
  EncodeLength.of_first _ _ rfl (EncodeLength.length_fixed_2 _ (by decide +kernel))

theorem EncodeLength.andDir (d : DataAddr) : EncodeLength.Statement (.andDir d) :=
  EncodeLength.of_first _ _ rfl (EncodeLength.length_direct_two _ (by decide +kernel) _)

theorem EncodeLength.andInd (k : IndReg) : EncodeLength.Statement (.andInd k) :=
  EncodeLength.of_first _ _ rfl (EncodeLength.length_indirect_one _ (by decide +kernel) _)

theorem EncodeLength.orImm (v : Byte) : EncodeLength.Statement (.orImm v) :=
  EncodeLength.of_first _ _ rfl (EncodeLength.length_fixed_2 _ (by decide +kernel))

theorem EncodeLength.orDir (d : DataAddr) : EncodeLength.Statement (.orDir d) :=
  EncodeLength.of_first _ _ rfl (EncodeLength.length_direct_two _ (by decide +kernel) _)

theorem EncodeLength.orInd (k : IndReg) : EncodeLength.Statement (.orInd k) :=
  EncodeLength.of_first _ _ rfl (EncodeLength.length_indirect_one _ (by decide +kernel) _)

theorem EncodeLength.xorImm (v : Byte) : EncodeLength.Statement (.xorImm v) :=
  EncodeLength.of_first _ _ rfl (EncodeLength.length_fixed_2 _ (by decide +kernel))

theorem EncodeLength.xorDir (d : DataAddr) : EncodeLength.Statement (.xorDir d) :=
  EncodeLength.of_first _ _ rfl (EncodeLength.length_direct_two _ (by decide +kernel) _)

theorem EncodeLength.xorInd (k : IndReg) : EncodeLength.Statement (.xorInd k) :=
  EncodeLength.of_first _ _ rfl (EncodeLength.length_indirect_one _ (by decide +kernel) _)

theorem EncodeLength.rol : EncodeLength.Statement .rol :=
  EncodeLength.of_first _ _ rfl (EncodeLength.length_fixed_1 _ (by decide +kernel))

theorem EncodeLength.rolc : EncodeLength.Statement .rolc :=
  EncodeLength.of_first _ _ rfl (EncodeLength.length_fixed_1 _ (by decide +kernel))

theorem EncodeLength.ror : EncodeLength.Statement .ror :=
  EncodeLength.of_first _ _ rfl (EncodeLength.length_fixed_1 _ (by decide +kernel))

theorem EncodeLength.rorc : EncodeLength.Statement .rorc :=
  EncodeLength.of_first _ _ rfl (EncodeLength.length_fixed_1 _ (by decide +kernel))

theorem EncodeLength.clr1 (d : DataAddr) (n : BitNum) : EncodeLength.Statement (.clr1 d n) :=
  EncodeLength.of_first _ _ rfl (EncodeLength.length_bit_two _ (by decide +kernel) _ _)

theorem EncodeLength.set1 (d : DataAddr) (n : BitNum) : EncodeLength.Statement (.set1 d n) :=
  EncodeLength.of_first _ _ rfl (EncodeLength.length_bit_two _ (by decide +kernel) _ _)

theorem EncodeLength.not1 (d : DataAddr) (n : BitNum) : EncodeLength.Statement (.not1 d n) :=
  EncodeLength.of_first _ _ rfl (EncodeLength.length_bit_two _ (by decide +kernel) _ _)

theorem EncodeLength.ldDir (d : DataAddr) : EncodeLength.Statement (.ldDir d) :=
  EncodeLength.of_first _ _ rfl (EncodeLength.length_direct_two _ (by decide +kernel) _)

theorem EncodeLength.ldInd (k : IndReg) : EncodeLength.Statement (.ldInd k) :=
  EncodeLength.of_first _ _ rfl (EncodeLength.length_indirect_one _ (by decide +kernel) _)

theorem EncodeLength.stDir (d : DataAddr) : EncodeLength.Statement (.stDir d) :=
  EncodeLength.of_first _ _ rfl (EncodeLength.length_direct_two _ (by decide +kernel) _)

theorem EncodeLength.stInd (k : IndReg) : EncodeLength.Statement (.stInd k) :=
  EncodeLength.of_first _ _ rfl (EncodeLength.length_indirect_one _ (by decide +kernel) _)

theorem EncodeLength.movDir (v : Byte) (d : DataAddr) : EncodeLength.Statement (.movDir v d) :=
  EncodeLength.of_first _ _ rfl (EncodeLength.length_direct_three _ (by decide +kernel) _)

theorem EncodeLength.movInd (v : Byte) (k : IndReg) : EncodeLength.Statement (.movInd v k) :=
  EncodeLength.of_first _ _ rfl (EncodeLength.length_indirect_two _ (by decide +kernel) _)

theorem EncodeLength.ldc : EncodeLength.Statement .ldc :=
  EncodeLength.of_first _ _ rfl (EncodeLength.length_fixed_1 _ (by decide +kernel))

theorem EncodeLength.push (d : DataAddr) : EncodeLength.Statement (.push d) :=
  EncodeLength.of_first _ _ rfl (EncodeLength.length_direct_two _ (by decide +kernel) _)

theorem EncodeLength.pop (d : DataAddr) : EncodeLength.Statement (.pop d) :=
  EncodeLength.of_first _ _ rfl (EncodeLength.length_direct_two _ (by decide +kernel) _)

theorem EncodeLength.xchDir (d : DataAddr) : EncodeLength.Statement (.xchDir d) :=
  EncodeLength.of_first _ _ rfl (EncodeLength.length_direct_two _ (by decide +kernel) _)

theorem EncodeLength.xchInd (k : IndReg) : EncodeLength.Statement (.xchInd k) :=
  EncodeLength.of_first _ _ rfl (EncodeLength.length_indirect_one _ (by decide +kernel) _)

theorem EncodeLength.ldf : EncodeLength.Statement .ldf :=
  EncodeLength.of_first _ _ rfl (EncodeLength.length_fixed_1 _ (by decide +kernel))

theorem EncodeLength.stf : EncodeLength.Statement .stf :=
  EncodeLength.of_first _ _ rfl (EncodeLength.length_fixed_1 _ (by decide +kernel))

theorem EncodeLength.jmp (a : PageAddr) : EncodeLength.Statement (.jmp a) :=
  EncodeLength.of_first _ _ rfl (EncodeLength.length_bit_two _ (by decide +kernel) _ _)

theorem EncodeLength.jmpf (a : CodeAddr) : EncodeLength.Statement (.jmpf a) :=
  EncodeLength.of_first _ _ rfl (EncodeLength.length_fixed_3 _ (by decide +kernel))

theorem EncodeLength.br (r : Byte) : EncodeLength.Statement (.br r) :=
  EncodeLength.of_first _ _ rfl (EncodeLength.length_fixed_2 _ (by decide +kernel))

theorem EncodeLength.brf (r : CodeAddr) : EncodeLength.Statement (.brf r) :=
  EncodeLength.of_first _ _ rfl (EncodeLength.length_fixed_3 _ (by decide +kernel))

theorem EncodeLength.bz (r : Byte) : EncodeLength.Statement (.bz r) :=
  EncodeLength.of_first _ _ rfl (EncodeLength.length_fixed_2 _ (by decide +kernel))

theorem EncodeLength.bnz (r : Byte) : EncodeLength.Statement (.bnz r) :=
  EncodeLength.of_first _ _ rfl (EncodeLength.length_fixed_2 _ (by decide +kernel))

theorem EncodeLength.bp (d : DataAddr) (n : BitNum) (r : Byte) : EncodeLength.Statement (.bp d n r) :=
  EncodeLength.of_first _ _ rfl (EncodeLength.length_bit_three _ (by decide +kernel) _ _)

theorem EncodeLength.bpc (d : DataAddr) (n : BitNum) (r : Byte) : EncodeLength.Statement (.bpc d n r) :=
  EncodeLength.of_first _ _ rfl (EncodeLength.length_bit_three _ (by decide +kernel) _ _)

theorem EncodeLength.bn (d : DataAddr) (n : BitNum) (r : Byte) : EncodeLength.Statement (.bn d n r) :=
  EncodeLength.of_first _ _ rfl (EncodeLength.length_bit_three _ (by decide +kernel) _ _)

theorem EncodeLength.dbnzDir (d : DataAddr) (r : Byte) : EncodeLength.Statement (.dbnzDir d r) :=
  EncodeLength.of_first _ _ rfl (EncodeLength.length_direct_three _ (by decide +kernel) _)

theorem EncodeLength.dbnzInd (k : IndReg) (r : Byte) : EncodeLength.Statement (.dbnzInd k r) :=
  EncodeLength.of_first _ _ rfl (EncodeLength.length_indirect_two _ (by decide +kernel) _)

theorem EncodeLength.beImm (v : Byte) (r : Byte) : EncodeLength.Statement (.beImm v r) :=
  EncodeLength.of_first _ _ rfl (EncodeLength.length_fixed_3 _ (by decide +kernel))

theorem EncodeLength.beDir (d : DataAddr) (r : Byte) : EncodeLength.Statement (.beDir d r) :=
  EncodeLength.of_first _ _ rfl (EncodeLength.length_direct_three _ (by decide +kernel) _)

theorem EncodeLength.beInd (k : IndReg) (v : Byte) (r : Byte) : EncodeLength.Statement (.beInd k v r) :=
  EncodeLength.of_first _ _ rfl (EncodeLength.length_indirect_three _ (by decide +kernel) _)

theorem EncodeLength.bneImm (v : Byte) (r : Byte) : EncodeLength.Statement (.bneImm v r) :=
  EncodeLength.of_first _ _ rfl (EncodeLength.length_fixed_3 _ (by decide +kernel))

theorem EncodeLength.bneDir (d : DataAddr) (r : Byte) : EncodeLength.Statement (.bneDir d r) :=
  EncodeLength.of_first _ _ rfl (EncodeLength.length_direct_three _ (by decide +kernel) _)

theorem EncodeLength.bneInd (k : IndReg) (v : Byte) (r : Byte) : EncodeLength.Statement (.bneInd k v r) :=
  EncodeLength.of_first _ _ rfl (EncodeLength.length_indirect_three _ (by decide +kernel) _)

theorem EncodeLength.call (a : PageAddr) : EncodeLength.Statement (.call a) :=
  EncodeLength.of_first _ _ rfl (EncodeLength.length_bit_two _ (by decide +kernel) _ _)

theorem EncodeLength.callf (a : CodeAddr) : EncodeLength.Statement (.callf a) :=
  EncodeLength.of_first _ _ rfl (EncodeLength.length_fixed_3 _ (by decide +kernel))

theorem EncodeLength.callr (r : CodeAddr) : EncodeLength.Statement (.callr r) :=
  EncodeLength.of_first _ _ rfl (EncodeLength.length_fixed_3 _ (by decide +kernel))

theorem EncodeLength.ret : EncodeLength.Statement .ret :=
  EncodeLength.of_first _ _ rfl (EncodeLength.length_fixed_1 _ (by decide +kernel))

theorem EncodeLength.reti : EncodeLength.Statement .reti :=
  EncodeLength.of_first _ _ rfl (EncodeLength.length_fixed_1 _ (by decide +kernel))

theorem EncodeLength.nop : EncodeLength.Statement .nop :=
  EncodeLength.of_first _ _ rfl (EncodeLength.length_fixed_1 _ (by decide +kernel))

end Sys2Proof.Laws
end

