-- ==== Sys2Proof/Tests/Slice0.lean ====
section
/-! SUPPORT. The model's own tests: ill-formed terms that WellFormed refuses, one word of every form written out from the
bit patterns of `30_encoding.md` R55, one-step tests from the vectors of `95_test_vectors.md` (the number of the vector
stands above each), and a witness for the hypotheses of every statement. -/

set_option Elab.async false

namespace Sys2Proof.Tests

open Sys2Proof.Machine Sys2Proof.Claims

/-! ## Well-formedness: each check refuses an ill-formed term and lets the boundary pass -/

theorem test_refuses_the_first_device_address :
    Instr.directOk (.ldDir 0x107#9) = false ∧ Instr.directOk (.ldDir 0x106#9) = true := by
  decide +kernel

theorem test_refuses_the_last_device_address_of_a_bit_form :
    Instr.wellFormed (.clr1 0x1FF#9 0#3) = false ∧ Instr.wellFormed (.clr1 0x0FF#9 7#3) = true := by
  decide +kernel

theorem test_refuses_the_flash_instructions :
    Instr.flashOk .ldf = false ∧ Instr.flashOk .stf = false ∧ Instr.flashOk .ldc = true := by
  decide +kernel

theorem test_refuses_push_and_pop_of_sp :
    Instr.stackOk (.push 0x106#9) = false ∧ Instr.stackOk (.pop 0x106#9) = false ∧ Instr.stackOk (.ldDir 0x106#9) = true
      ∧ Instr.wellFormed (.push 0x106#9) = false := by
  decide +kernel

theorem test_refuses_a_page_target_outside_the_page_of_next :
    pageOk 0x1000#16 0x0FFF#16 = false ∧ pageOperand 0x1000#16 0x2000#16 = none
      ∧ pageOperand 0x1000#16 0x1FFF#16 = some 0xFFF#12 := by
  decide +kernel

theorem test_refuses_a_branch_target_out_of_reach :
    rel8Ok 0x0200#16 0x0280#16 = false ∧ rel8Operand 0x0200#16 0x017F#16 = none
      ∧ rel8Operand 0x0200#16 0x027F#16 = some 0x7F#8 ∧ rel8Operand 0x0200#16 0x0180#16 = some 0x80#8 := by
  decide +kernel

/-! ## Decoding: a word of every form, written out bit by bit from `30_encoding.md` R55

The operands are `i8` = 0x5A, `d9` = 0x145, `@R2`, `b3` = 5, `r8` = 0xFD, `a12` = 0x923, `a16` = 0x1234, `r16` = 0x02FD. -/

/-- The bytes decode to the instruction and nothing is left over. -/
def reads (bytes : List Byte) (i : Instr) : Bool :=
  match decodeBytes bytes with
  | .ok (j, rest) => j == i && rest.isEmpty
  | .error _ => false

theorem test_decode_add :
    (reads [0b10000001#8, 0b01011010#8] (.addImm 0x5A#8)
      && reads [0b10000011#8, 0b01000101#8] (.addDir 0x145#9)
      && reads [0b10000110#8] (.addInd 2#2)) = true := by
  decide +kernel

theorem test_decode_addc :
    (reads [0b10010001#8, 0b01011010#8] (.addcImm 0x5A#8)
      && reads [0b10010011#8, 0b01000101#8] (.addcDir 0x145#9)
      && reads [0b10010110#8] (.addcInd 2#2)) = true := by
  decide +kernel

theorem test_decode_sub :
    (reads [0b10100001#8, 0b01011010#8] (.subImm 0x5A#8)
      && reads [0b10100011#8, 0b01000101#8] (.subDir 0x145#9)
      && reads [0b10100110#8] (.subInd 2#2)) = true := by
  decide +kernel

theorem test_decode_subc :
    (reads [0b10110001#8, 0b01011010#8] (.subcImm 0x5A#8)
      && reads [0b10110011#8, 0b01000101#8] (.subcDir 0x145#9)
      && reads [0b10110110#8] (.subcInd 2#2)) = true := by
  decide +kernel

theorem test_decode_inc :
    (reads [0b01100011#8, 0b01000101#8] (.incDir 0x145#9)
      && reads [0b01100110#8] (.incInd 2#2)) = true := by
  decide +kernel

theorem test_decode_dec :
    (reads [0b01110011#8, 0b01000101#8] (.decDir 0x145#9)
      && reads [0b01110110#8] (.decInd 2#2)) = true := by
  decide +kernel

theorem test_decode_mul :
    (reads [0b00110000#8] .mul) = true := by
  decide +kernel

theorem test_decode_div :
    (reads [0b01000000#8] .div) = true := by
  decide +kernel

theorem test_decode_and :
    (reads [0b11100001#8, 0b01011010#8] (.andImm 0x5A#8)
      && reads [0b11100011#8, 0b01000101#8] (.andDir 0x145#9)
      && reads [0b11100110#8] (.andInd 2#2)) = true := by
  decide +kernel

theorem test_decode_or :
    (reads [0b11010001#8, 0b01011010#8] (.orImm 0x5A#8)
      && reads [0b11010011#8, 0b01000101#8] (.orDir 0x145#9)
      && reads [0b11010110#8] (.orInd 2#2)) = true := by
  decide +kernel

theorem test_decode_xor :
    (reads [0b11110001#8, 0b01011010#8] (.xorImm 0x5A#8)
      && reads [0b11110011#8, 0b01000101#8] (.xorDir 0x145#9)
      && reads [0b11110110#8] (.xorInd 2#2)) = true := by
  decide +kernel

theorem test_decode_rol :
    (reads [0b11100000#8] .rol) = true := by
  decide +kernel

theorem test_decode_rolc :
    (reads [0b11110000#8] .rolc) = true := by
  decide +kernel

theorem test_decode_ror :
    (reads [0b11000000#8] .ror) = true := by
  decide +kernel

theorem test_decode_rorc :
    (reads [0b11010000#8] .rorc) = true := by
  decide +kernel

theorem test_decode_clr1 :
    (reads [0b11011101#8, 0b01000101#8] (.clr1 0x145#9 5#3)) = true := by
  decide +kernel

theorem test_decode_set1 :
    (reads [0b11111101#8, 0b01000101#8] (.set1 0x145#9 5#3)) = true := by
  decide +kernel

theorem test_decode_not1 :
    (reads [0b10111101#8, 0b01000101#8] (.not1 0x145#9 5#3)) = true := by
  decide +kernel

theorem test_decode_ld :
    (reads [0b00000011#8, 0b01000101#8] (.ldDir 0x145#9)
      && reads [0b00000110#8] (.ldInd 2#2)) = true := by
  decide +kernel

theorem test_decode_st :
    (reads [0b00010011#8, 0b01000101#8] (.stDir 0x145#9)
      && reads [0b00010110#8] (.stInd 2#2)) = true := by
  decide +kernel

theorem test_decode_mov :
    (reads [0b00100011#8, 0b01000101#8, 0b01011010#8] (.movDir 0x5A#8 0x145#9)
      && reads [0b00100110#8, 0b01011010#8] (.movInd 0x5A#8 2#2)) = true := by
  decide +kernel

theorem test_decode_ldc :
    (reads [0b11000001#8] .ldc) = true := by
  decide +kernel

theorem test_decode_push :
    (reads [0b01100001#8, 0b01000101#8] (.push 0x145#9)) = true := by
  decide +kernel

theorem test_decode_pop :
    (reads [0b01110001#8, 0b01000101#8] (.pop 0x145#9)) = true := by
  decide +kernel

theorem test_decode_xch :
    (reads [0b11000011#8, 0b01000101#8] (.xchDir 0x145#9)
      && reads [0b11000110#8] (.xchInd 2#2)) = true := by
  decide +kernel

theorem test_decode_ldf :
    (reads [0b01010000#8] .ldf) = true := by
  decide +kernel

theorem test_decode_stf :
    (reads [0b01010001#8] .stf) = true := by
  decide +kernel

theorem test_decode_jmp :
    (reads [0b00111001#8, 0b00100011#8] (.jmp 0x923#12)) = true := by
  decide +kernel

theorem test_decode_jmpf :
    (reads [0b00100001#8, 0b00010010#8, 0b00110100#8] (.jmpf 0x1234#16)) = true := by
  decide +kernel

theorem test_decode_br :
    (reads [0b00000001#8, 0b11111101#8] (.br 0xFD#8)) = true := by
  decide +kernel

theorem test_decode_brf :
    (reads [0b00010001#8, 0b11111101#8, 0b00000010#8] (.brf 0x02FD#16)) = true := by
  decide +kernel

theorem test_decode_bz :
    (reads [0b10000000#8, 0b11111101#8] (.bz 0xFD#8)) = true := by
  decide +kernel

theorem test_decode_bnz :
    (reads [0b10010000#8, 0b11111101#8] (.bnz 0xFD#8)) = true := by
  decide +kernel

theorem test_decode_bp :
    (reads [0b01111101#8, 0b01000101#8, 0b11111101#8] (.bp 0x145#9 5#3 0xFD#8)) = true := by
  decide +kernel

theorem test_decode_bpc :
    (reads [0b01011101#8, 0b01000101#8, 0b11111101#8] (.bpc 0x145#9 5#3 0xFD#8)) = true := by
  decide +kernel

theorem test_decode_bn :
    (reads [0b10011101#8, 0b01000101#8, 0b11111101#8] (.bn 0x145#9 5#3 0xFD#8)) = true := by
  decide +kernel

theorem test_decode_dbnz :
    (reads [0b01010011#8, 0b01000101#8, 0b11111101#8] (.dbnzDir 0x145#9 0xFD#8)
      && reads [0b01010110#8, 0b11111101#8] (.dbnzInd 2#2 0xFD#8)) = true := by
  decide +kernel

theorem test_decode_be :
    (reads [0b00110001#8, 0b01011010#8, 0b11111101#8] (.beImm 0x5A#8 0xFD#8)
      && reads [0b00110011#8, 0b01000101#8, 0b11111101#8] (.beDir 0x145#9 0xFD#8)
      && reads [0b00110110#8, 0b01011010#8, 0b11111101#8] (.beInd 2#2 0x5A#8 0xFD#8)) = true := by
  decide +kernel

theorem test_decode_bne :
    (reads [0b01000001#8, 0b01011010#8, 0b11111101#8] (.bneImm 0x5A#8 0xFD#8)
      && reads [0b01000011#8, 0b01000101#8, 0b11111101#8] (.bneDir 0x145#9 0xFD#8)
      && reads [0b01000110#8, 0b01011010#8, 0b11111101#8] (.bneInd 2#2 0x5A#8 0xFD#8)) = true := by
  decide +kernel

theorem test_decode_call :
    (reads [0b00011001#8, 0b00100011#8] (.call 0x923#12)) = true := by
  decide +kernel

theorem test_decode_callf :
    (reads [0b00100000#8, 0b00010010#8, 0b00110100#8] (.callf 0x1234#16)) = true := by
  decide +kernel

theorem test_decode_callr :
    (reads [0b00010000#8, 0b11111101#8, 0b00000010#8] (.callr 0x02FD#16)) = true := by
  decide +kernel

theorem test_decode_ret :
    (reads [0b10100000#8] .ret) = true := by
  decide +kernel

theorem test_decode_reti :
    (reads [0b10110000#8] .reti) = true := by
  decide +kernel

theorem test_decode_nop :
    (reads [0b00000000#8] .nop) = true := by
  decide +kernel

theorem test_decode_needs_every_byte :
    (match decodeBytes [0x22#8, 0x10#8] with | .error .truncated => true | _ => false) = true
      ∧ (match decodeBytes [] with | .error .noByte => true | _ => false) = true := by
  decide +kernel

/-- Bit 0 of a table word is the least significant bit of the first byte: `mov #$2A, $100` is `23 00 2A`. -/
theorem test_table_word_is_laid_out_first_byte_lowest :
    decodeTableWord 24 0x2A0023 = some (.movDir 0x2A#8 0x100#9) ∧ decodeTableWord 8 0x2A0023 = some (.movDir 0#8 0x100#9) := by
  decide +kernel

/-! ## A small state, and one step from it -/

/-- The state after reset with `pc` at 0x0200, where the vectors stand. -/
def base : State := { State.reset with pc := 0x0200#16 }

/-- The next step runs the bytes and ends in a state of which `want` holds. -/
def runs (s : State) (bytes : List Byte) (want : State → Bool) : Bool :=
  match step (s.loadAtPc bytes) with
  | .next t => want t
  | .fault _ => false
  | .refused _ => false

/-- The next step is refused for the reason. -/
def refuses (s : State) (bytes : List Byte) (reason : Refusal) : Bool :=
  match step (s.loadAtPc bytes) with
  | .next _ => false
  | .fault _ => false
  | .refused r => r == reason

/-- The next step faults for the reason. -/
def faults (s : State) (bytes : List Byte) (reason : Fault) : Bool :=
  match step (s.loadAtPc bytes) with
  | .next _ => false
  | .fault r => r == reason
  | .refused _ => false

/-- The next step ends in a state of which `want` holds; the agent's moves stay. -/
def runsAgent (s : State) (want : State → Bool) : Bool :=
  match step s with
  | .next t => want t
  | .fault _ => false
  | .refused _ => false

/-! ## One step: `40_arithmetic.md`: add, addc, sub, subc (vectors A of `95_test_vectors.md`) -/

/-- A4: `add #$80`. -/
theorem test_add_imm_overflows_to_zero :
    runs { base with acc := 0x80#8 } [0x81#8, 0x80#8]
      (fun t => t.acc == 0x00#8 && t.psw == 0x84#8 && t.pc == 0x0202#16) = true := by
  decide +kernel

/-- A6: `add #$FF`. -/
theorem test_add_imm_carries_without_overflow :
    runs { base with acc := 0x7F#8 } [0x81#8, 0xFF#8]
      (fun t => t.acc == 0x7E#8 && t.psw == 0xC0#8 && t.pc == 0x0202#16) = true := by
  decide +kernel

/-- A9: `add $100`. -/
theorem test_add_dir_doubles_acc :
    runs { base with acc := 0x40#8 } [0x83#8, 0x00#8]
      (fun t => t.acc == 0x80#8 && t.psw == 0x04#8 && t.pc == 0x0202#16) = true := by
  decide +kernel

/-- A10: `add @R0`. -/
theorem test_add_ind_carries :
    runs { base with acc := 0x01#8, ram := [(0x000, 0x30#8), (0x030, 0xFF#8)] } [0x84#8]
      (fun t => t.acc == 0x00#8 && t.psw == 0xC0#8 && t.pc == 0x0201#16
        && t.ram == [(0x000, 0x30#8), (0x030, 0xFF#8)]) = true := by
  decide +kernel

/-- A11: `add @R2`. -/
theorem test_add_ind_reads_b_through_r2 :
    runs { base with acc := 0x01#8, b := 0x10#8, ram := [(0x002, 0x02#8)] } [0x86#8]
      (fun t => t.acc == 0x11#8 && t.psw == 0x00#8 && t.pc == 0x0201#16 && t.ram == [(0x002, 0x02#8)]) = true := by
  decide +kernel

/-- A13: `addc #$00`. -/
theorem test_addc_imm_overflows_on_the_carry_in :
    runs { base with acc := 0x7F#8, psw := 0x80#8 } [0x91#8, 0x00#8]
      (fun t => t.acc == 0x80#8 && t.psw == 0x44#8 && t.pc == 0x0202#16) = true := by
  decide +kernel

/-- A14: `addc #$FF`. -/
theorem test_addc_imm_carry_in_reaches_cy :
    runs { base with psw := 0x80#8 } [0x91#8, 0xFF#8]
      (fun t => t.psw == 0xC0#8 && t.pc == 0x0202#16) = true := by
  decide +kernel

/-- A17: `addc $011`. -/
theorem test_addc_dir_adds_the_carry :
    runs { base with acc := 0x01#8, psw := 0x80#8, ram := [(0x011, 0x01#8)] } [0x92#8, 0x11#8]
      (fun t => t.acc == 0x03#8 && t.psw == 0x00#8 && t.pc == 0x0202#16 && t.ram == [(0x011, 0x01#8)]) = true := by
  decide +kernel

/-- A18: `addc @R1`. -/
theorem test_addc_ind_half_carries :
    runs { base with acc := 0xF0#8, psw := 0x80#8, ram := [(0x001, 0x40#8), (0x040, 0x0F#8)] } [0x95#8]
      (fun t => t.acc == 0x00#8 && t.psw == 0xC0#8 && t.pc == 0x0201#16
        && t.ram == [(0x001, 0x40#8), (0x040, 0x0F#8)]) = true := by
  decide +kernel

/-- A21: `sub #$FF`. -/
theorem test_sub_imm_borrows_and_overflows :
    runs { base with acc := 0x7F#8 } [0xA1#8, 0xFF#8]
      (fun t => t.acc == 0x80#8 && t.psw == 0x84#8 && t.pc == 0x0202#16) = true := by
  decide +kernel

/-- A22: `sub #$01`. -/
theorem test_sub_imm_overflows_without_borrow :
    runs { base with acc := 0x80#8 } [0xA1#8, 0x01#8]
      (fun t => t.acc == 0x7F#8 && t.psw == 0x44#8 && t.pc == 0x0202#16) = true := by
  decide +kernel

/-- A25: `sub $020`. -/
theorem test_sub_dir_borrows :
    runs { base with acc := 0x50#8, ram := [(0x020, 0x60#8)] } [0xA2#8, 0x20#8]
      (fun t => t.acc == 0xF0#8 && t.psw == 0x80#8 && t.pc == 0x0202#16 && t.ram == [(0x020, 0x60#8)]) = true := by
  decide +kernel

/-- A26: `sub @R0`. -/
theorem test_sub_ind_gives_zero :
    runs { base with acc := 0x05#8, ram := [(0x000, 0x21#8), (0x021, 0x05#8)] } [0xA4#8]
      (fun t => t.acc == 0x00#8 && t.psw == 0x00#8 && t.pc == 0x0201#16
        && t.ram == [(0x000, 0x21#8), (0x021, 0x05#8)]) = true := by
  decide +kernel

/-- A28: `subc #$FF`. -/
theorem test_subc_imm_borrow_in_reaches_cy :
    runs { base with psw := 0x80#8 } [0xB1#8, 0xFF#8]
      (fun t => t.psw == 0xC0#8 && t.pc == 0x0202#16) = true := by
  decide +kernel

/-- A29: `subc #$00`. -/
theorem test_subc_imm_overflows_on_the_borrow_in :
    runs { base with acc := 0x80#8, psw := 0x80#8 } [0xB1#8, 0x00#8]
      (fun t => t.acc == 0x7F#8 && t.psw == 0x44#8 && t.pc == 0x0202#16) = true := by
  decide +kernel

/-- A32: `subc $102`. -/
theorem test_subc_dir_reads_b :
    runs { base with acc := 0x20#8, b := 0x10#8, psw := 0x80#8 } [0xB3#8, 0x02#8]
      (fun t => t.acc == 0x0F#8 && t.psw == 0x40#8 && t.pc == 0x0202#16) = true := by
  decide +kernel

/-- A33: `subc @R0`. -/
theorem test_subc_ind_borrows :
    runs { base with psw := 0x80#8, ram := [(0x000, 0x7F#8), (0x07F, 0x7F#8)] } [0xB4#8]
      (fun t => t.acc == 0x80#8 && t.psw == 0xC0#8 && t.pc == 0x0201#16
        && t.ram == [(0x000, 0x7F#8), (0x07F, 0x7F#8)]) = true := by
  decide +kernel

/-! ## One step: inc, dec (vectors B of `95_test_vectors.md`) -/

/-- B2: `inc $010`. -/
theorem test_inc_dir_wraps_and_keeps_the_flags :
    runs { base with psw := 0xC4#8, ram := [(0x010, 0xFF#8)] } [0x62#8, 0x10#8]
      (fun t => t.psw == 0xC4#8 && t.pc == 0x0202#16 && t.ram == [(0x010, 0x00#8)]) = true := by
  decide +kernel

/-- B4: `inc $106`. -/
theorem test_inc_dir_moves_sp :
    runs { base with sp := 0x7F#8 } [0x63#8, 0x06#8]
      (fun t => t.sp == 0x80#8 && t.pc == 0x0202#16) = true := by
  decide +kernel

/-- B5: `inc @R0`. -/
theorem test_inc_ind_of_its_own_pointer :
    runs { base with ram := [(0x000, 0x00#8)] } [0x64#8]
      (fun t => t.pc == 0x0201#16 && t.ram == [(0x000, 0x01#8)]) = true := by
  decide +kernel

/-- B9: `inc @R1`. -/
theorem test_inc_ind_in_register_set_three :
    runs { base with psw := 0x18#8, ram := [(0x00D, 0x50#8), (0x050, 0x01#8)] } [0x65#8]
      (fun t => t.psw == 0x18#8 && t.pc == 0x0201#16 && t.ram == [(0x00D, 0x50#8), (0x050, 0x02#8)]) = true := by
  decide +kernel

/-- B10: `dec $010`. -/
theorem test_dec_dir_wraps_and_keeps_cy :
    runs { base with psw := 0x80#8, ram := [(0x010, 0x00#8)] } [0x72#8, 0x10#8]
      (fun t => t.psw == 0x80#8 && t.pc == 0x0202#16 && t.ram == [(0x010, 0xFF#8)]) = true := by
  decide +kernel

/-- B14: `dec @R3`. -/
theorem test_dec_ind_reaches_acc_through_r3 :
    runs { base with acc := 0x01#8, ram := [(0x003, 0x00#8)] } [0x77#8]
      (fun t => t.acc == 0x00#8 && t.pc == 0x0201#16 && t.ram == [(0x003, 0x00#8)]) = true := by
  decide +kernel

/-! ## One step: mul, div (vectors C of `95_test_vectors.md`) -/

/-- C1: `mul`. -/
theorem test_mul_spreads_the_product :
    runs { base with acc := 0x12#8, b := 0x56#8, c := 0x34#8, psw := 0xC4#8 } [0x30#8]
      (fun t => t.acc == 0x1D#8 && t.psw == 0x44#8 && t.b == 0x06#8 && t.c == 0x78#8 && t.pc == 0x0201#16) = true := by
  decide +kernel

/-- C9: `mul`. -/
theorem test_mul_of_0x10000_sets_no_byte_but_acc :
    runs { base with b := 0x10#8, c := 0x10#8 } [0x30#8]
      (fun t => t.acc == 0x01#8 && t.b == 0x00#8 && t.c == 0x00#8 && t.psw == 0x00#8 && t.pc == 0x0201#16) = true := by
  decide +kernel

/-- C10: `div`. -/
theorem test_div_leaves_a_remainder :
    runs { base with acc := 0x12#8, b := 0x56#8, c := 0x34#8, psw := 0xC0#8 } [0x40#8]
      (fun t => t.acc == 0x00#8 && t.psw == 0x40#8 && t.b == 0x10#8 && t.c == 0x36#8 && t.pc == 0x0201#16) = true := by
  decide +kernel

/-- C12: `div`. -/
theorem test_div_without_remainder_sets_ov :
    runs { base with acc := 0xFF#8, b := 0xFF#8, c := 0xFF#8, psw := 0xC0#8 } [0x40#8]
      (fun t => t.acc == 0x01#8 && t.psw == 0x44#8 && t.b == 0x00#8 && t.c == 0x01#8 && t.pc == 0x0201#16) = true := by
  decide +kernel

/-! ## One step: and, or, xor (vectors D of `95_test_vectors.md`) -/

/-- D1: `and #$0F`. -/
theorem test_and_imm_keeps_the_flags :
    runs { base with acc := 0xA5#8, psw := 0xC4#8 } [0xE1#8, 0x0F#8]
      (fun t => t.acc == 0x05#8 && t.psw == 0xC4#8 && t.pc == 0x0202#16) = true := by
  decide +kernel

/-- D2: `and $010`. -/
theorem test_and_dir :
    runs { base with acc := 0xFF#8, ram := [(0x010, 0x3C#8)] } [0xE2#8, 0x10#8]
      (fun t => t.acc == 0x3C#8 && t.pc == 0x0202#16 && t.ram == [(0x010, 0x3C#8)]) = true := by
  decide +kernel

/-- D4: `and @R1`. -/
theorem test_and_ind :
    runs { base with acc := 0xF0#8, ram := [(0x001, 0x22#8), (0x022, 0x99#8)] } [0xE5#8]
      (fun t => t.acc == 0x90#8 && t.pc == 0x0201#16 && t.ram == [(0x001, 0x22#8), (0x022, 0x99#8)]) = true := by
  decide +kernel

/-- D6: `or #$0F`. -/
theorem test_or_imm_keeps_the_flags :
    runs { base with acc := 0xA5#8, psw := 0x84#8 } [0xD1#8, 0x0F#8]
      (fun t => t.acc == 0xAF#8 && t.psw == 0x84#8 && t.pc == 0x0202#16) = true := by
  decide +kernel

/-- D7: `or $010`. -/
theorem test_or_dir :
    runs { base with acc := 0x01#8, ram := [(0x010, 0x80#8)] } [0xD2#8, 0x10#8]
      (fun t => t.acc == 0x81#8 && t.pc == 0x0202#16 && t.ram == [(0x010, 0x80#8)]) = true := by
  decide +kernel

/-- D8: `or @R2`. -/
theorem test_or_ind_reads_b_through_r2 :
    runs { base with acc := 0x0F#8, b := 0xF0#8, ram := [(0x002, 0x02#8)] } [0xD6#8]
      (fun t => t.acc == 0xFF#8 && t.pc == 0x0201#16 && t.ram == [(0x002, 0x02#8)]) = true := by
  decide +kernel

/-- D9: `xor #$FF`. -/
theorem test_xor_imm_complements :
    runs { base with acc := 0xA5#8, psw := 0x40#8 } [0xF1#8, 0xFF#8]
      (fun t => t.acc == 0x5A#8 && t.psw == 0x40#8 && t.pc == 0x0202#16) = true := by
  decide +kernel

/-- D10: `xor $100`. -/
theorem test_xor_dir_of_acc_clears :
    runs { base with acc := 0x5A#8 } [0xF3#8, 0x00#8]
      (fun t => t.acc == 0x00#8 && t.pc == 0x0202#16) = true := by
  decide +kernel

/-- D12: `xor @R0`. -/
theorem test_xor_ind :
    runs { base with acc := 0xFF#8, ram := [(0x000, 0x40#8), (0x040, 0x81#8)] } [0xF4#8]
      (fun t => t.acc == 0x7E#8 && t.pc == 0x0201#16 && t.ram == [(0x000, 0x40#8), (0x040, 0x81#8)]) = true := by
  decide +kernel

/-! ## One step: rotates (vectors E of `95_test_vectors.md`) -/

/-- E3: `rol`. -/
theorem test_rol_wraps_the_top_bit :
    runs { base with acc := 0x80#8, psw := 0xC4#8 } [0xE0#8]
      (fun t => t.acc == 0x01#8 && t.psw == 0xC4#8 && t.pc == 0x0201#16) = true := by
  decide +kernel

/-- E7: `rolc`. -/
theorem test_rolc_takes_cy_in :
    runs { base with psw := 0xC4#8 } [0xF0#8]
      (fun t => t.acc == 0x01#8 && t.psw == 0x44#8 && t.pc == 0x0201#16) = true := by
  decide +kernel

/-- E11: `ror`. -/
theorem test_ror_wraps_the_bottom_bit :
    runs { base with acc := 0x01#8 } [0xC0#8]
      (fun t => t.acc == 0x80#8 && t.psw == 0x00#8 && t.pc == 0x0201#16) = true := by
  decide +kernel

/-- E18: `rorc`. -/
theorem test_rorc_takes_cy_in_and_gives_bit_zero_out :
    runs { base with acc := 0x80#8, psw := 0x84#8 } [0xD0#8]
      (fun t => t.acc == 0xC0#8 && t.psw == 0x04#8 && t.pc == 0x0201#16) = true := by
  decide +kernel

/-! ## One step: bit instructions (vectors F of `95_test_vectors.md`) -/

/-- F3: `clr1 $010, 7`. -/
theorem test_clr1_bit_seven :
    runs { base with ram := [(0x010, 0x80#8)] } [0xCF#8, 0x10#8]
      (fun t => t.pc == 0x0202#16 && t.ram == [(0x010, 0x00#8)]) = true := by
  decide +kernel

/-- F5: `clr1 $100, 0`. -/
theorem test_clr1_of_acc :
    runs { base with acc := 0xFF#8 } [0xD8#8, 0x00#8]
      (fun t => t.acc == 0xFE#8 && t.pc == 0x0202#16) = true := by
  decide +kernel

/-- F8: `set1 $020, 7`. -/
theorem test_set1_bit_seven :
    runs { base with ram := [(0x020, 0x01#8)] } [0xEF#8, 0x20#8]
      (fun t => t.pc == 0x0202#16 && t.ram == [(0x020, 0x81#8)]) = true := by
  decide +kernel

/-- F12: `set1 $020, 2`. -/
theorem test_set1_of_a_set_bit :
    runs { base with ram := [(0x020, 0x04#8)] } [0xEA#8, 0x20#8]
      (fun t => t.pc == 0x0202#16 && t.ram == [(0x020, 0x04#8)]) = true := by
  decide +kernel

/-- F14: `not1 $030, 7`. -/
theorem test_not1_bit_seven :
    runs { base with ram := [(0x030, 0xFF#8)] } [0xAF#8, 0x30#8]
      (fun t => t.pc == 0x0202#16 && t.ram == [(0x030, 0x7F#8)]) = true := by
  decide +kernel

/-- F17: `not1 $040, 1`. -/
theorem test_not1_in_bank_one :
    runs { base with psw := 0x02#8, ram := [(0x040, 0x55#8), (0x140, 0x00#8)] } [0xA9#8, 0x40#8]
      (fun t => t.psw == 0x02#8 && t.pc == 0x0202#16 && t.ram == [(0x040, 0x55#8), (0x140, 0x02#8)]) = true := by
  decide +kernel

/-! ## One step: data transfer (vectors G of `95_test_vectors.md`) -/

/-- G2: `ld $102`. -/
theorem test_ld_dir_reads_b :
    runs { base with b := 0x5A#8 } [0x03#8, 0x02#8]
      (fun t => t.acc == 0x5A#8 && t.pc == 0x0202#16) = true := by
  decide +kernel

/-- G7: `ld @R1`. -/
theorem test_ld_ind_in_register_set_two :
    runs { base with psw := 0x10#8, ram := [(0x009, 0x44#8), (0x044, 0x66#8)] } [0x05#8]
      (fun t => t.acc == 0x66#8 && t.psw == 0x10#8 && t.pc == 0x0201#16
        && t.ram == [(0x009, 0x44#8), (0x044, 0x66#8)]) = true := by
  decide +kernel

/-- G8: `ld @R0`. -/
theorem test_ld_ind_pointer_in_the_current_bank :
    runs { base with psw := 0x02#8, ram := [(0x000, 0x30#8), (0x030, 0xCD#8), (0x100, 0x20#8), (0x120, 0xAB#8)] }
      [0x04#8]
      (fun t => t.acc == 0xAB#8 && t.psw == 0x02#8 && t.pc == 0x0201#16
        && t.ram == [(0x000, 0x30#8), (0x030, 0xCD#8), (0x100, 0x20#8), (0x120, 0xAB#8)]) = true := by
  decide +kernel

/-- G9: `st $010`. -/
theorem test_st_dir_of_ram :
    runs { base with acc := 0x3C#8 } [0x12#8, 0x10#8]
      (fun t => t.pc == 0x0202#16 && t.ram == [(0x010, 0x3C#8)]) = true := by
  decide +kernel

/-- G11: `st $101`. -/
theorem test_st_dir_drops_psw_bits_five_and_zero :
    runs { base with acc := 0xFF#8 } [0x13#8, 0x01#8]
      (fun t => t.psw == 0xDE#8 && t.pc == 0x0202#16) = true := by
  decide +kernel

/-- G12: `st @R0`. -/
theorem test_st_ind_of_its_own_pointer :
    runs { base with acc := 0x11#8, ram := [(0x000, 0x00#8)] } [0x14#8]
      (fun t => t.pc == 0x0201#16 && t.ram == [(0x000, 0x11#8)]) = true := by
  decide +kernel

/-- G13: `st @R2`. -/
theorem test_st_ind_reaches_c_through_r2 :
    runs { base with acc := 0x22#8, ram := [(0x002, 0x03#8)] } [0x16#8]
      (fun t => t.c == 0x22#8 && t.pc == 0x0201#16 && t.ram == [(0x002, 0x03#8)]) = true := by
  decide +kernel

/-- G14: `mov #$05, $010`. -/
theorem test_mov_dir_of_ram :
    runs base [0x22#8, 0x10#8, 0x05#8]
      (fun t => t.pc == 0x0203#16 && t.ram == [(0x010, 0x05#8)]) = true := by
  decide +kernel

/-- G16: `mov #$FF, $101`. -/
theorem test_mov_dir_of_psw :
    runs base [0x23#8, 0x01#8, 0xFF#8]
      (fun t => t.psw == 0xDE#8 && t.pc == 0x0203#16) = true := by
  decide +kernel

/-- G18: `mov #$12, @R2`. -/
theorem test_mov_ind_reaches_trl :
    runs { base with ram := [(0x002, 0x04#8)] } [0x26#8, 0x12#8]
      (fun t => t.trl == 0x12#8 && t.pc == 0x0202#16 && t.ram == [(0x002, 0x04#8)]) = true := by
  decide +kernel

/-- G20: `ldc`. -/
theorem test_ldc_wraps :
    runs { base with acc := 0x02#8, trl := 0xFF#8, trh := 0xFF#8, code := [(0x001, 0x5A#8)] } [0xC1#8]
      (fun t => t.acc == 0x5A#8 && t.pc == 0x0201#16) = true := by
  decide +kernel

/-- G21: `ldc`. -/
theorem test_ldc_reads_its_own_byte :
    runs { base with trh := 0x02#8 } [0xC1#8]
      (fun t => t.acc == 0xC1#8 && t.pc == 0x0201#16) = true := by
  decide +kernel

/-- G23: `push $100`. -/
theorem test_push_wraps_sp :
    runs { base with acc := 0x12#8, sp := 0xFF#8 } [0x61#8, 0x00#8]
      (fun t => t.sp == 0x00#8 && t.pc == 0x0202#16 && t.ram == [(0x000, 0x12#8)]) = true := by
  decide +kernel

/-- G25: `push $010`. -/
theorem test_push_reads_bank_one_and_stores_in_bank_zero :
    runs { base with sp := 0x7F#8, psw := 0x02#8, ram := [(0x010, 0x11#8), (0x110, 0x99#8)] } [0x60#8, 0x10#8]
      (fun t => t.sp == 0x80#8 && t.psw == 0x02#8 && t.pc == 0x0202#16
        && t.ram == [(0x010, 0x11#8), (0x080, 0x99#8), (0x110, 0x99#8)]) = true := by
  decide +kernel

/-- G28: `pop $100`. -/
theorem test_pop_wraps_sp :
    runs { base with ram := [(0x000, 0x34#8)] } [0x71#8, 0x00#8]
      (fun t => t.acc == 0x34#8 && t.sp == 0xFF#8 && t.pc == 0x0202#16 && t.ram == [(0x000, 0x34#8)]) = true := by
  decide +kernel

/-- G29: `pop $101`. -/
theorem test_pop_of_psw :
    runs { base with sp := 0x21#8, ram := [(0x021, 0xFF#8)] } [0x71#8, 0x01#8]
      (fun t => t.psw == 0xDE#8 && t.sp == 0x20#8 && t.pc == 0x0202#16 && t.ram == [(0x021, 0xFF#8)]) = true := by
  decide +kernel

/-- G32: `xch $010`. -/
theorem test_xch_dir_of_ram :
    runs { base with acc := 0x11#8, ram := [(0x010, 0x22#8)] } [0xC2#8, 0x10#8]
      (fun t => t.acc == 0x22#8 && t.pc == 0x0202#16 && t.ram == [(0x010, 0x11#8)]) = true := by
  decide +kernel

/-- G36: `xch @R0`. -/
theorem test_xch_ind_of_its_own_pointer :
    runs { base with acc := 0x33#8, ram := [(0x000, 0x00#8)] } [0xC4#8]
      (fun t => t.acc == 0x00#8 && t.pc == 0x0201#16 && t.ram == [(0x000, 0x33#8)]) = true := by
  decide +kernel

/-! ## One step: jumps (vectors H of `95_test_vectors.md`) -/

/-- H3: `jmp $2000`. -/
theorem test_jmp_takes_the_page_of_the_following_instruction :
    runs { base with pc := 0x1FFE#16 } [0x28#8, 0x00#8]
      (fun t => t.pc == 0x2000#16) = true := by
  decide +kernel

/-- H2: `jmp $1FFF`. -/
theorem test_jmp_with_every_address_bit :
    runs { base with pc := 0x1100#16 } [0x3F#8, 0xFF#8]
      (fun t => t.pc == 0x1FFF#16) = true := by
  decide +kernel

/-- H5: `jmpf $ABCD`. -/
theorem test_jmpf_high_byte_first :
    runs { base with pc := 0x0000#16 } [0x21#8, 0xAB#8, 0xCD#8]
      (fun t => t.pc == 0xABCD#16) = true := by
  decide +kernel

/-- H8: `br $0182`. -/
theorem test_br_backward_to_the_limit :
    runs base [0x01#8, 0x80#8]
      (fun t => t.pc == 0x0182#16) = true := by
  decide +kernel

/-- H11: `br $000A`. -/
theorem test_br_wraps_forward :
    runs { base with pc := 0xFFF8#16 } [0x01#8, 0x10#8]
      (fun t => t.pc == 0x000A#16) = true := by
  decide +kernel

/-- H15: `brf $1536`. -/
theorem test_brf_low_byte_first :
    runs { base with pc := 0x0300#16 } [0x11#8, 0x34#8, 0x12#8]
      (fun t => t.pc == 0x1536#16) = true := by
  decide +kernel

/-- H17: `brf $FFFF`. -/
theorem test_brf_wraps :
    runs { base with pc := 0xFFFE#16 } [0x11#8, 0xFF#8, 0xFF#8]
      (fun t => t.pc == 0xFFFF#16) = true := by
  decide +kernel

/-! ## One step: branches on a value or a bit (vectors I of `95_test_vectors.md`) -/

/-- I3: `bz $01FE`. -/
theorem test_bz_backward :
    runs base [0x80#8, 0xFC#8]
      (fun t => t.pc == 0x01FE#16) = true := by
  decide +kernel

/-- I2: `bz $0212`. -/
theorem test_bz_not_taken :
    runs { base with acc := 0x01#8 } [0x80#8, 0x10#8]
      (fun t => t.pc == 0x0202#16) = true := by
  decide +kernel

/-- I4: `bnz $0212`. -/
theorem test_bnz_not_taken :
    runs base [0x90#8, 0x10#8]
      (fun t => t.pc == 0x0202#16) = true := by
  decide +kernel

/-- I5: `bnz $0212`. -/
theorem test_bnz_taken :
    runs { base with acc := 0x80#8 } [0x90#8, 0x10#8]
      (fun t => t.pc == 0x0212#16) = true := by
  decide +kernel

/-- I8: `bp $010, 0, $0200`. -/
theorem test_bp_taken_backward :
    runs { base with ram := [(0x010, 0x01#8)] } [0x68#8, 0x10#8, 0xFD#8]
      (fun t => t.pc == 0x0200#16 && t.ram == [(0x010, 0x01#8)]) = true := by
  decide +kernel

/-- I9: `bp $010, 2, $0223`. -/
theorem test_bp_not_taken :
    runs { base with ram := [(0x010, 0xFB#8)] } [0x6A#8, 0x10#8, 0x20#8]
      (fun t => t.pc == 0x0203#16 && t.ram == [(0x010, 0xFB#8)]) = true := by
  decide +kernel

/-- I12: `bpc $010, 1, $0209`. -/
theorem test_bpc_not_taken_writes_nothing :
    runs { base with ram := [(0x010, 0xFD#8)] } [0x49#8, 0x10#8, 0x06#8]
      (fun t => t.pc == 0x0203#16 && t.ram == [(0x010, 0xFD#8)]) = true := by
  decide +kernel

/-- I14: `bpc $100, 7, $0200`. -/
theorem test_bpc_clears_and_branches :
    runs { base with acc := 0x80#8 } [0x5F#8, 0x00#8, 0xFD#8]
      (fun t => t.acc == 0x00#8 && t.pc == 0x0200#16) = true := by
  decide +kernel

/-- I15: `bn $010, 0, $020B`. -/
theorem test_bn_taken :
    runs { base with ram := [(0x010, 0xFE#8)] } [0x88#8, 0x10#8, 0x08#8]
      (fun t => t.pc == 0x020B#16 && t.ram == [(0x010, 0xFE#8)]) = true := by
  decide +kernel

/-- I18: `bn $102, 2, $0200`. -/
theorem test_bn_not_taken :
    runs { base with b := 0x04#8 } [0x9A#8, 0x02#8, 0xFD#8]
      (fun t => t.pc == 0x0203#16) = true := by
  decide +kernel

/-! ## One step: dbnz, be, bne (vectors J of `95_test_vectors.md`) -/

/-- J2: `dbnz $010, $01FE`. -/
theorem test_dbnz_dir_ends_at_zero :
    runs { base with ram := [(0x010, 0x01#8)] } [0x52#8, 0x10#8, 0xFB#8]
      (fun t => t.pc == 0x0203#16 && t.ram == [(0x010, 0x00#8)]) = true := by
  decide +kernel

/-- J3: `dbnz $010, $01FE`. -/
theorem test_dbnz_dir_wraps_and_branches :
    runs { base with psw := 0xC4#8, ram := [(0x010, 0x00#8)] } [0x52#8, 0x10#8, 0xFB#8]
      (fun t => t.psw == 0xC4#8 && t.pc == 0x01FE#16 && t.ram == [(0x010, 0xFF#8)]) = true := by
  decide +kernel

/-- J6: `dbnz @R0, $0200`. -/
theorem test_dbnz_ind_taken :
    runs { base with ram := [(0x000, 0x40#8), (0x040, 0x03#8)] } [0x54#8, 0xFE#8]
      (fun t => t.pc == 0x0200#16 && t.ram == [(0x000, 0x40#8), (0x040, 0x02#8)]) = true := by
  decide +kernel

/-- J8: `dbnz @R3, $020A`. -/
theorem test_dbnz_ind_not_taken :
    runs { base with b := 0x01#8, ram := [(0x003, 0x02#8)] } [0x57#8, 0x08#8]
      (fun t => t.b == 0x00#8 && t.pc == 0x0202#16 && t.ram == [(0x003, 0x02#8)]) = true := by
  decide +kernel

/-- J12: `be #$80, $0213`. -/
theorem test_be_imm_compares_unsigned :
    runs { base with acc := 0x7F#8 } [0x31#8, 0x80#8, 0x10#8]
      (fun t => t.psw == 0x80#8 && t.pc == 0x0203#16) = true := by
  decide +kernel

/-- J9: `be #$05, $0213`. -/
theorem test_be_imm_taken_clears_cy :
    runs { base with acc := 0x05#8, psw := 0xC4#8 } [0x31#8, 0x05#8, 0x10#8]
      (fun t => t.psw == 0x44#8 && t.pc == 0x0213#16) = true := by
  decide +kernel

/-- J15: `be $010, $0200`. -/
theorem test_be_dir_not_taken :
    runs { base with acc := 0x20#8, ram := [(0x010, 0x21#8)] } [0x32#8, 0x10#8, 0xFD#8]
      (fun t => t.psw == 0x80#8 && t.pc == 0x0203#16 && t.ram == [(0x010, 0x21#8)]) = true := by
  decide +kernel

/-- J14: `be $010, $0200`. -/
theorem test_be_dir_taken :
    runs { base with acc := 0x20#8, psw := 0x80#8, ram := [(0x010, 0x20#8)] } [0x32#8, 0x10#8, 0xFD#8]
      (fun t => t.psw == 0x00#8 && t.pc == 0x0200#16 && t.ram == [(0x010, 0x20#8)]) = true := by
  decide +kernel

/-- J17: `be @R0, #$07, $0213`. -/
theorem test_be_ind_taken_whatever_acc_is :
    runs { base with acc := 0xEE#8, psw := 0x80#8, ram := [(0x000, 0x30#8), (0x030, 0x07#8)] } [0x34#8, 0x07#8, 0x10#8]
      (fun t => t.psw == 0x00#8 && t.pc == 0x0213#16 && t.ram == [(0x000, 0x30#8), (0x030, 0x07#8)]) = true := by
  decide +kernel

/-- J18: `be @R1, #$07, $0213`. -/
theorem test_be_ind_not_taken :
    runs { base with acc := 0x07#8, ram := [(0x001, 0x30#8), (0x030, 0x06#8)] } [0x35#8, 0x07#8, 0x10#8]
      (fun t => t.psw == 0x80#8 && t.pc == 0x0203#16 && t.ram == [(0x001, 0x30#8), (0x030, 0x06#8)]) = true := by
  decide +kernel

/-- J20: `bne #$05, $0213`. -/
theorem test_bne_imm_not_taken :
    runs { base with acc := 0x05#8, psw := 0x80#8 } [0x41#8, 0x05#8, 0x10#8]
      (fun t => t.psw == 0x00#8 && t.pc == 0x0203#16) = true := by
  decide +kernel

/-- J22: `bne #$05, $01F3`. -/
theorem test_bne_imm_taken_backward :
    runs { base with acc := 0x06#8, psw := 0x80#8 } [0x41#8, 0x05#8, 0xF0#8]
      (fun t => t.psw == 0x00#8 && t.pc == 0x01F3#16) = true := by
  decide +kernel

/-- J23: `bne $010, $020B`. -/
theorem test_bne_dir_taken :
    runs { base with ram := [(0x010, 0xFF#8)] } [0x42#8, 0x10#8, 0x08#8]
      (fun t => t.psw == 0x80#8 && t.pc == 0x020B#16 && t.ram == [(0x010, 0xFF#8)]) = true := by
  decide +kernel

/-- J24: `bne $102, $020B`. -/
theorem test_bne_dir_not_taken :
    runs { base with acc := 0x10#8, b := 0x10#8, psw := 0x80#8 } [0x43#8, 0x02#8, 0x08#8]
      (fun t => t.psw == 0x00#8 && t.pc == 0x0203#16) = true := by
  decide +kernel

/-- J25: `bne @R0, #$00, $020B`. -/
theorem test_bne_ind_not_taken :
    runs { base with psw := 0x80#8, ram := [(0x000, 0x50#8), (0x050, 0x00#8)] } [0x44#8, 0x00#8, 0x08#8]
      (fun t => t.psw == 0x00#8 && t.pc == 0x0203#16 && t.ram == [(0x000, 0x50#8), (0x050, 0x00#8)]) = true := by
  decide +kernel

/-- J26: `bne @R1, #$09, $020B`. -/
theorem test_bne_ind_taken :
    runs { base with ram := [(0x001, 0x50#8), (0x050, 0x08#8)] } [0x45#8, 0x09#8, 0x08#8]
      (fun t => t.psw == 0x80#8 && t.pc == 0x020B#16 && t.ram == [(0x001, 0x50#8), (0x050, 0x08#8)]) = true := by
  decide +kernel

/-! ## One step: call, return, nop (vectors K of `95_test_vectors.md`) -/

/-- K2: `call $3FFF`. -/
theorem test_call_wraps_sp :
    runs { base with sp := 0xFE#8, pc := 0x3000#16 } [0x1F#8, 0xFF#8]
      (fun t => t.sp == 0x00#8 && t.pc == 0x3FFF#16 && t.ram == [(0x000, 0x30#8), (0x0FF, 0x02#8)]) = true := by
  decide +kernel

/-- K4: `call $0000`. -/
theorem test_call_pushes_to_bank_zero :
    runs { base with sp := 0x10#8, psw := 0x02#8 } [0x08#8, 0x00#8]
      (fun t => t.sp == 0x12#8 && t.psw == 0x02#8 && t.pc == 0x0000#16
        && t.ram == [(0x011, 0x02#8), (0x012, 0x02#8)]) = true := by
  decide +kernel

/-- K6: `callf $0000`. -/
theorem test_callf_wraps_pc_and_sp :
    runs { base with sp := 0xFF#8, pc := 0xFFFD#16 } [0x20#8, 0x00#8, 0x00#8]
      (fun t => t.sp == 0x01#8 && t.pc == 0x0000#16 && t.ram == [(0x000, 0x00#8), (0x001, 0x00#8)]) = true := by
  decide +kernel

/-- K5: `callf $1234`. -/
theorem test_callf_pushes_low_byte_first :
    runs { base with sp := 0x10#8, pc := 0x0300#16 } [0x20#8, 0x12#8, 0x34#8]
      (fun t => t.sp == 0x12#8 && t.pc == 0x1234#16 && t.ram == [(0x011, 0x03#8), (0x012, 0x03#8)]) = true := by
  decide +kernel

/-- K9: `callr $0400`. -/
theorem test_callr_pushes_next_itself :
    runs { base with sp := 0x20#8, pc := 0x0400#16 } [0x10#8, 0xFE#8, 0xFF#8]
      (fun t => t.sp == 0x22#8 && t.pc == 0x0400#16 && t.ram == [(0x021, 0x03#8), (0x022, 0x04#8)]) = true := by
  decide +kernel

/-- K11: `ret`. -/
theorem test_ret_wraps_sp :
    runs { base with ram := [(0x000, 0x12#8), (0x0FF, 0x34#8)] } [0xA0#8]
      (fun t => t.sp == 0xFE#8 && t.pc == 0x1234#16 && t.ram == [(0x000, 0x12#8), (0x0FF, 0x34#8)]) = true := by
  decide +kernel

/-- K12: `ret`. -/
theorem test_ret_keeps_the_hold :
    runs { base with sp := 0x81#8, ram := [(0x080, 0x22#8), (0x081, 0x01#8)], intHold := true } [0xA0#8]
      (fun t => t.sp == 0x7F#8 && t.pc == 0x0122#16 && t.intHold
        && t.ram == [(0x080, 0x22#8), (0x081, 0x01#8)]) = true := by
  decide +kernel

/-- K13: `reti`. -/
theorem test_reti_ends_the_hold :
    runs { base with sp := 0x81#8, ram := [(0x080, 0x22#8), (0x081, 0x01#8)], intHold := true } [0xB0#8]
      (fun t => !t.intHold && t.sp == 0x7F#8 && t.pc == 0x0122#16
        && t.ram == [(0x080, 0x22#8), (0x081, 0x01#8)]) = true := by
  decide +kernel

/-- K14: `reti`. -/
theorem test_reti_outside_a_handler :
    runs { base with sp := 0x81#8, psw := 0xC4#8, ram := [(0x080, 0x22#8), (0x081, 0x01#8)] } [0xB0#8]
      (fun t => t.sp == 0x7F#8 && !t.intHold && t.psw == 0xC4#8 && t.pc == 0x0122#16
        && t.ram == [(0x080, 0x22#8), (0x081, 0x01#8)]) = true := by
  decide +kernel

/-- K16: `nop`. -/
theorem test_nop_wraps :
    runs { base with pc := 0xFFFF#16 } [0x00#8]
      (fun t => t.pc == 0x0000#16) = true := by
  decide +kernel

/-! ## Stops -/

/-- G37 and G38: `ldf`, `stf`. -/
theorem test_flash_instructions_are_refused :
    refuses base [0x50#8] .flashLoad = true ∧ refuses base [0x51#8] .flashStore = true := by
  decide +kernel

/-- G26 and G30: `push $106`, `pop $106`. -/
theorem test_push_and_pop_of_sp_are_refused :
    refuses { base with sp := 0x20#8 } [0x61#8, 0x06#8] .stackPointerOperand = true
      ∧ refuses { base with sp := 0x21#8, ram := [(0x21, 0x40#8)] } [0x71#8, 0x06#8] .stackPointerOperand = true := by
  decide +kernel

/-- G4 and B8: the device region, reached directly and through `@R2`. -/
theorem test_device_region_is_refused :
    refuses base [0x03#8, 0x07#8] (.deviceRegion 0x107#9) = true
      ∧ refuses { base with psw := 0x08#8, ram := [(0x06, 0x50#8), (0x50, 0x01#8)] } [0x66#8] (.deviceRegion 0x150#9)
          = true := by
  decide +kernel

/-- I19: a RAM cell that no launch premise fixes. -/
theorem test_unwritten_ram_cell_faults : faults base [0x6B#8, 0x20#8, 0x05#8] (.unsetRam 0 0x20#8) = true := by
  decide +kernel

/-- C17: `div` by zero goes on, with `cy` cleared (`40_arithmetic.md` R77). -/
theorem test_div_by_zero_goes_on :
    runs { base with acc := 0x12#8, c := 0x34#8, psw := 0xC0#8 } [0x40#8] (fun t => t.pc == 0x0201#16) = true := by
  decide +kernel

/-! ## Interrupts (`60_exceptions.md` R145 to R147) -/

/-- Entry pushes `pc`, low byte first, and goes to the vector. -/
theorem test_interrupt_entry :
    runsAgent { base with pc := 0x060E#16, sp := 0x7F#8, agent := [.request 0x0003#16] }
      (fun t => t.pc == 0x0003#16 && t.intHold && t.ram == [(0x80, 0x0E#8), (0x81, 0x06#8)] && t.agent == []) = true := by
  decide +kernel

/-- While `int_hold` is set the request waits and the instruction at `pc` runs. -/
theorem test_held_interrupt_waits :
    runsAgent { base with code := [(0x200, 0x00#8)], intHold := true, agent := [.request 0x0003#16] }
      (fun t => t.pc == 0x0201#16 && t.agent == [.request 0x0003#16]) = true := by
  decide +kernel

/-! ## Witnesses: states and operands that meet the hypotheses of the statements

The name after `witness_` begins with the words of the statement's name. -/

/-- RAM at the ends of both banks, pointers R0..R3 to 0x030, 0x0FF, 0x100, 0x106, and a return address on the stack. -/
def full : State :=
  { base with
    acc := 0x12#8, b := 0x56#8, c := 0x34#8, trl := 0xFF#8, trh := 0x01#8, sp := 0x81#8
    ram := [(0x000, 0x30#8), (0x001, 0xFF#8), (0x002, 0x00#8), (0x003, 0x06#8), (0x030, 0x01#8), (0x080, 0x22#8),
      (0x081, 0x01#8), (0x0FF, 0x80#8), (0x100, 0x40#8), (0x1FF, 0x77#8)]
    code := [(0x0200, 0x00#8), (0x0211, 0x5A#8)] }

/-- The same with the second bank selected. -/
def banked : State := { full with psw := 0x02#8 }

/-- The same under the device oracle. -/
def oracle : State := { full with devicePolicy := .oracle }

theorem witness_data_read_of_ram :
    Memory.read full.ram (currentKey full 0x000) = some 0x30#8 ∧ Memory.read full.ram (currentKey full 0x0FF) = some 0x80#8
      ∧ Memory.read banked.ram (currentKey banked 0x0FF) = some 0x77#8
      ∧ Memory.read full.ram (currentKey full 0x0FE) = none ∧ (0x0FF#9).toNat < 256 := by
  decide +kernel

theorem witness_data_read_and_write_of_the_device_region :
    263 ≤ (0x107#9).toNat ∧ 263 ≤ (0x1FF#9).toNat ∧ ¬263 ≤ (0x106#9).toNat ∧ full.devicePolicy = .refuse
      ∧ oracle.devicePolicy = .oracle := by
  decide +kernel

theorem witness_data_write_of_ram : (0x000#9).toNat < 256 ∧ (0x0FF#9).toNat < 256 ∧ ¬(0x100#9).toNat < 256 := by
  decide +kernel

theorem witness_indirect_address :
    Memory.read full.ram (256 * 0 + (4 * (full.psw.toNat / 8 % 4) + (3#2).toNat)) = some 0x06#8
      ∧ Memory.read banked.ram (256 * 1 + (4 * (banked.psw.toNat / 8 % 4) + (0#2).toNat)) = some 0x40#8
      ∧ Memory.read banked.ram (256 * 1 + (4 * (banked.psw.toNat / 8 % 4) + (3#2).toNat)) = none := by
  decide +kernel

theorem witness_stack_accesses :
    Memory.read full.ram (0xFF#8).toNat = some 0x80#8 ∧ Memory.read full.ram (0xFE#8).toNat = none := by
  decide +kernel

/-- The first `n` bytes of the three-byte `mov #0x2A, 0x010` at the end of the code space, after a quiet move of the agent. -/
def cutOff (n : Nat) : State :=
  { base with pc := 0xFFFF#16, agent := [.quiet], code := [(0x0000, 0x10#8), (0xFFFF, 0x22#8)].drop (2 - n) }

theorem witness_code_read :
    Memory.read full.code (0x0200#16).toNat = some 0x00#8 ∧ Memory.read base.code (0x0200#16).toNat = none
      ∧ base.boundary = .run base ∧ base.pc = 0x0200#16 := by
  decide +kernel

/-- A fetch that meets no byte, only the first byte, or only the first two bytes of a three-byte instruction. -/
theorem witness_code_read_of_the_second_and_third_byte :
    (cutOff 0).boundary = .run { cutOff 0 with agent := [] } ∧ Memory.read (cutOff 0).code 0xFFFF = none
      ∧ (cutOff 1).boundary = .run { cutOff 1 with agent := [] } ∧ Memory.read (cutOff 1).code 0xFFFF = some 0x22#8
      ∧ 2 < instrLength 0x22#8 ∧ Memory.read (cutOff 1).code (0xFFFF#16 + 1#16).toNat = none
      ∧ (cutOff 2).boundary = .run { cutOff 2 with agent := [] } ∧ Memory.read (cutOff 2).code 0xFFFF = some 0x22#8
      ∧ Memory.read (cutOff 2).code (0xFFFF#16 + 1#16).toNat = some 0x10#8
      ∧ Memory.read (cutOff 2).code (0xFFFF#16 + 2#16).toNat = none := by
  decide +kernel

/-- The operands of `forEachSource` and `forEachCell`: direct at 0x000, 0x0FF, 0x100 and 0x106, indirect through each of
R0..R3. It serves the statements on add, addc, sub, subc, inc, dec, and, or, xor, ld, xch, dbnz, be and bne. -/
theorem witness_operands_that_have_a_value :
    full.dataRead 0x000#9 = .next 0x30#8 ∧ full.dataRead 0x0FF#9 = .next 0x80#8 ∧ full.dataRead 0x100#9 = .next 0x12#8
      ∧ full.dataRead 0x106#9 = .next 0x81#8
      ∧ (full.indAddr 0#2 = .next 0x030#9 ∧ full.dataRead 0x030#9 = .next 0x01#8)
      ∧ (full.indAddr 1#2 = .next 0x0FF#9 ∧ full.dataRead 0x0FF#9 = .next 0x80#8)
      ∧ (full.indAddr 2#2 = .next 0x100#9 ∧ full.dataRead 0x100#9 = .next 0x12#8)
      ∧ (full.indAddr 3#2 = .next 0x106#9 ∧ full.dataRead 0x106#9 = .next 0x81#8) :=
  ⟨rfl, rfl, rfl, rfl, ⟨rfl, rfl⟩, ⟨rfl, rfl⟩, ⟨rfl, rfl⟩, ⟨rfl, rfl⟩⟩

/-- The same in the second bank, and in the device region under the oracle. -/
theorem witness_operands_in_bank_one_and_under_the_oracle :
    banked.dataRead 0x0FF#9 = .next 0x77#8 ∧ banked.indAddr 0#2 = .next 0x040#9
      ∧ oracle.dataRead 0x107#9 = .next (Config.deviceRead 0 0x107#9) :=
  ⟨rfl, rfl, rfl⟩

theorem witness_div_by_a_divisor_that_is_not_zero : full.b ≠ 0#8 := by
  decide +kernel

theorem witness_ror_and_the_other_rotates :
    (Instr.rorc, Instr.rolc) ∈ [(Instr.rol, Instr.ror), (.ror, .rol), (.rolc, .rorc), (.rorc, .rolc)] := by
  decide +kernel

/-- A bit that is set and a bit that is clear, at both ends of a byte: clr1, set1, not1, bp, bpc, bn. -/
theorem witness_bit_instructions :
    full.dataRead 0x0FF#9 = .next 0x80#8 ∧ (0x80#8).getLsbD (7#3).toNat = true ∧ (0x80#8).getLsbD (0#3).toNat = false :=
  ⟨rfl, rfl, rfl⟩

theorem witness_st_mov_and_pop_write_where_they_may :
    writable full 0x000#9 ∧ writable full 0x106#9 ∧ writable oracle 0x107#9 ∧ writable oracle 0x1FF#9
      ∧ full.indAddr 3#2 = .next 0x106#9 :=
  ⟨.inl (by decide), .inl (by decide), .inr rfl, .inr rfl, rfl⟩

theorem witness_ldc :
    Memory.read full.code ((256 * full.trh.toNat + full.trl.toNat + full.acc.toNat) % 65536) = some 0x5A#8
      ∧ Memory.read base.code ((256 * base.trh.toNat + base.trl.toNat + base.acc.toNat) % 65536) = none := by
  decide +kernel

theorem witness_push_and_pop :
    (0x0FF#9 ≠ 0x106#9 ∧ full.dataRead 0x0FF#9 = .next 0x80#8)
      ∧ (0x105#9 ≠ 0x106#9 ∧ writable full 0x105#9 ∧ Memory.read full.ram full.sp.toNat = some 0x01#8) :=
  ⟨⟨by decide, rfl⟩, ⟨by decide, .inl (by decide), rfl⟩⟩

theorem witness_push_then_pop :
    0x0FF#9 ≠ 0x106#9 ∧ 0x101#9 ≠ 0x106#9 ∧ full.dataRead 0x0FF#9 = .next 0x80#8 ∧ writable full 0x101#9 :=
  ⟨by decide, by decide, rfl, .inl (by decide)⟩

theorem witness_be_and_bne (v r : Byte) (d : DataAddr) (k : IndReg) :
    (true, Instr.beImm v r, Instr.beDir d r, Instr.beInd k v r) ∈
      [(true, Instr.beImm v r, Instr.beDir d r, Instr.beInd k v r), (false, .bneImm v r, .bneDir d r, .bneInd k v r)] :=
  List.mem_cons_self

theorem witness_ret_and_reti :
    full.stackRead full.sp = .next 0x01#8 ∧ full.stackRead (full.sp - 1#8) = .next 0x22#8 := ⟨rfl, rfl⟩

theorem witness_return_undoes_call :
    (Instr.callr 0xFFFE#16, 3) ∈ [(Instr.call 0x000#12, 2), (.callf 0xFFFE#16, 3), (.callr 0xFFFE#16, 3)] := by
  decide +kernel

/-- A state in which the agent asks. -/
def asked : State := { full with agent := [.request 0x0003#16, .quiet] }

/-- It serves the statements on interrupt entry and on `reti` undoing it. -/
theorem witness_interrupt_entry_and_reti_undoes_it :
    asked.agent = .request 0x0003#16 :: [.quiet] ∧ asked.intHold = false := ⟨rfl, rfl⟩

/-- A request that waits. -/
def waiting : State := { asked with intHold := true }

theorem witness_held_interrupt_waits :
    waiting.agent = .request 0x0003#16 :: [.quiet] ∧ waiting.intHold = true ∧ waiting.fetch = .next .nop
      ∧ exec .nop waiting = .next (waiting.advance 1) ∧ step waiting = .next (waiting.advance 1).tick :=
  ⟨rfl, rfl, rfl, rfl, rfl⟩

theorem witness_only_reti_ends_the_hold_and_only_entry_sets_it :
    (exec .reti waiting = .next { waiting with sp := 0x7F#8, pc := 0x0122#16, intHold := false })
      ∧ step asked = .next ({ asked with agent := [.quiet] }.takeInterrupt 0x0003#16) ∧ asked.intHold = false
      ∧ ({ asked with agent := [.quiet] }.takeInterrupt 0x0003#16).intHold = true :=
  ⟨rfl, rfl, rfl, rfl⟩

/-- The bytes of a three-byte instruction across the end of the code space, after a quiet move of the agent. -/
def wrapped : State :=
  { base with pc := 0xFFFE#16, agent := [.quiet], code := [(0x0000, 0x2A#8), (0xFFFE, 0x22#8), (0xFFFF, 0x10#8)] }

theorem witness_step_runs_an_instruction_that_ends_in_a_next_state :
    wrapped.boundary = .run { wrapped with agent := [] } ∧ codeHolds { wrapped with agent := [] } (encode (.movDir 0x2A#8 0x010#9))
      ∧ exec (.movDir 0x2A#8 0x010#9) { wrapped with agent := [] }
        = .next { wrapped with agent := [], pc := 0x0001#16, ram := [(0x10, 0x2A#8)] } := by
  refine ⟨rfl, ?_, rfl⟩
  intro k v h
  match k, h with
  | 0, h => injection h with h; subst h; rfl
  | 1, h => injection h with h; subst h; rfl
  | 2, h => injection h with h; subst h; rfl

theorem witness_boundary_runs_after_a_quiet_move_and_while_a_request_waits :
    wrapped.agent = .quiet :: [] ∧ wrapped.boundary = .run { wrapped with agent := [] }
      ∧ waiting.agent = .request 0x0003#16 :: [.quiet] ∧ waiting.intHold = true ∧ waiting.boundary = .run waiting :=
  ⟨rfl, rfl, rfl, rfl, rfl⟩

/-- `ld` of a RAM cell that nothing has written, and `ldf`. -/
def faulting : State := { base with code := [(0x0200, 0x02#8), (0x0201, 0xFE#8)] }
def refusing : State := { base with code := [(0x0200, 0x50#8)] }

theorem witness_step_runs_an_instruction_that_stops :
    (faulting.boundary = .run faulting ∧ codeHolds faulting (encode (.ldDir 0x0FE#9))
        ∧ exec (.ldDir 0x0FE#9) faulting = .fault (.unsetRam 0 0xFE#8))
      ∧ refusing.boundary = .run refusing ∧ codeHolds refusing (encode .ldf)
      ∧ exec .ldf refusing = .refused .flashLoad := by
  refine ⟨⟨rfl, ?_, rfl⟩, rfl, ?_, rfl⟩
  · intro k v h
    match k, h with
    | 0, h => injection h with h; subst h; rfl
    | 1, h => injection h with h; subst h; rfl
  · intro k v h
    match k, h with
    | 0, h => injection h with h; subst h; rfl

theorem witness_step_runs_the_placed_table_word :
    decodeTableWord 16 0x1001 = some (.br 0x10#8) ∧ decodeTableWord 8 0x01 = some (.br 0x00#8) := by
  decide +kernel

/-- It serves the statements on the canonical form, the launch parameters, and bank one while it is deselected. -/
theorem witness_steps_keep_what_they_keep :
    full.wf = true ∧ step full = .next (full.advance 1).tick ∧ full.psw.getLsbD 1 = false := ⟨rfl, rfl, rfl⟩

theorem witness_ram_outside_the_stored_cells :
    exec (.call 0xFFF#12) full = .next ((full.pushAddr 0x0202#16).jumpTo 0x0FFF#16)
      ∧ Instr.storedKeys (.call 0xFFF#12) full = [0x82, 0x83] ∧ 0x81 ∉ [0x82, 0x83]
      ∧ exec (.incInd 0#2) banked = .fault (.unsetRam 1 0x40#8) ∧ Instr.storedKeys (.incInd 1#2) full = [0x0FF] :=
  ⟨rfl, by decide +kernel, by decide, rfl, by decide +kernel⟩

theorem witness_registers_change_only_where_written :
    exec (.movDir 0x05#8 0x0FF#9) full = .next ({ full with ram := Memory.write full.ram 0x0FF 0x05#8 }.advance 3)
      ∧ Instr.writesAcc (.movDir 0x05#8 0x0FF#9) = false ∧ Instr.storeAddr (.movDir 0x05#8 0x0FF#9) full = some 0x0FF#9
      ∧ Instr.movDir 0x05#8 0x0FF#9 ≠ .mul ∧ Instr.movDir 0x05#8 0x0FF#9 ≠ .div :=
  ⟨rfl, rfl, rfl, by decide, by decide⟩

theorem witness_psw_bits_change_only_where_written :
    (∃ t, exec (.addImm 0xFF#8) full = .next t) ∧ Instr.storeAddr (.addImm 0xFF#8) full ≠ some 0x101#9
      ∧ exec (.stDir 0x100#9) full = .next (full.advance 2) ∧ Instr.storeAddr (.stDir 0x100#9) full ≠ some 0x101#9 :=
  ⟨⟨_, rfl⟩, by decide, rfl, by decide⟩

theorem witness_exec_stops_for_each_named_reason :
    exec (.addInd 0#2) base = .fault (.unsetRam 0 0x00#8) ∧ exec (.ldDir 0x107#9) full = .refused (.deviceRegion 0x107#9)
      ∧ exec .ldf full = .refused .flashLoad ∧ exec .stf full = .refused .flashStore
      ∧ exec (.push 0x106#9) full = .refused .stackPointerOperand ∧ exec (.pop 0x106#9) full = .refused .stackPointerOperand
      ∧ exec .ldc base = .refused (.codeNotCovered 0x0000#16) :=
  ⟨rfl, rfl, rfl, rfl, rfl, rfl, rfl⟩

theorem witness_well_formed_instructions :
    Instr.wellFormed (.ldDir 0x106#9) = true ∧ Instr.ldDir 0x106#9 ≠ .ldc ∧ Instr.indReg (.ldDir 0x106#9) = none
      ∧ Instr.wellFormed (.incInd 1#2) = true ∧ Instr.incInd 1#2 ≠ .ldc ∧ Instr.indReg (.incInd 1#2) = some 1#2
      ∧ (1#2).toNat < 2 := by
  decide +kernel

/-- Pointers R2 and R3 to the two ends of the device region. -/
def deviceBound : State := { full with ram := [(0x002, 0x07#8), (0x003, 0xFF#8), (0x081, 0x01#8)] }

theorem witness_device_operands_are_refused :
    (Instr.directAddr (.bp 0x107#9 0#3 0#8) = some 0x107#9 ∧ 263 ≤ (0x107#9).toNat ∧ full.devicePolicy = .refuse)
      ∧ (Instr.directAddr (.pop 0x1FF#9) = some 0x1FF#9 ∧ full.stackRead full.sp = .next 0x01#8)
      ∧ (Instr.indReg (.stInd 2#2) = some 2#2 ∧ deviceBound.indAddr 2#2 = .next 0x107#9)
      ∧ (Instr.indReg (.beInd 3#2 0#8 0#8) = some 3#2 ∧ deviceBound.indAddr 3#2 = .next 0x1FF#9 ∧ 263 ≤ (0x1FF#9).toNat
        ∧ deviceBound.devicePolicy = .refuse) :=
  ⟨⟨rfl, by decide, rfl⟩, ⟨rfl, rfl⟩, ⟨rfl, rfl⟩, rfl, rfl, by decide, rfl⟩

/-- A pointer to a cell that nothing has written, and a stack of one byte. -/
def sparse : State := { base with sp := 0x80#8, ram := [(0x000, 0x30#8), (0x080, 0x01#8)] }

theorem witness_unwritten_operands_fault :
    (Instr.directAddr (.addDir 0x0FF#9) = some 0x0FF#9 ∧ sparse.dataRead 0x0FF#9 = .fault (.unsetRam 0 0xFF#8))
      ∧ (Instr.indReg (.stInd 1#2) = some 1#2 ∧ sparse.indAddr 1#2 = .fault (.unsetRam 0 0x01#8))
      ∧ (Instr.indReg (.xchInd 0#2) = some 0#2 ∧ sparse.indAddr 0#2 = .next 0x030#9
        ∧ sparse.dataRead 0x030#9 = .fault (.unsetRam 0 0x30#8))
      ∧ base.stackRead base.sp = .fault (.unsetRam 0 0x00#8)
      ∧ (sparse.stackRead sparse.sp = .next 0x01#8 ∧ sparse.stackRead (sparse.sp - 1#8) = .fault (.unsetRam 0 0x7F#8)) :=
  ⟨⟨rfl, rfl⟩, ⟨rfl, rfl⟩, ⟨rfl, rfl, rfl⟩, rfl, rfl, rfl⟩

theorem witness_pointer_bank_is_invisible : full.psw.getLsbD 1 = false := rfl

theorem witness_assembled_operands :
    pageOperand 0x1000#16 0x1000#16 = some 0x000#12 ∧ pageOperand 0x0FFF#16 0x1000#16 = none
      ∧ rel8Operand 0x0000#16 0xFF80#16 = some 0x80#8 ∧ rel8Operand 0xFFFF#16 0x007E#16 = some 0x7F#8
      ∧ rel8Operand 0xFFFF#16 0x007F#16 = none := by
  decide +kernel

theorem witness_run_ends_at_halt_pc :
    full.pc = 0x0200#16 ∧ full.pc ≠ 0x0201#16 ∧ step full = .next (full.advance 1).tick :=
  ⟨rfl, by decide, rfl⟩

end Sys2Proof.Tests
end

section
/-! SUPPORT. Fetch, decoder and step: the decoder reads back what the encoder writes and looks at no byte beyond the
instruction's length (`30_encoding.md` R51, R56), a fetch finds the bytes that stand at `pc` (`20_memory.md` R34), and a
step at a boundary that runs is the instruction fetched there (`00_scope.md` R5). -/

namespace Sys2Proof

/-! ## The decoder looks at no byte beyond the instruction's length

Each column says by its row which operand bytes it looks at; in those rows `instrLength` counts them. -/

theorem decodeBitColumn_congr {b0 b1 b2 b2' : Byte} (h0 : b0.getLsbD 3 = true)
    (h2 : 2 < instrLength b0 → b2 = b2') : decodeBitColumn b0 b1 b2 = decodeBitColumn b0 b1 b2' := by
  have three : ∀ b : Byte, b.getLsbD 3 = true → (b.extractLsb' 5 3).toNat ∈ [2, 3, 4] → 2 < instrLength b := by
    decide +kernel
  specialize three b0 h0
  unfold decodeBitColumn
  generalize (b0.extractLsb' 5 3).toNat = row at three ⊢
  split
  case h_3 | h_4 | h_5 => rw [h2 (three (by decide))]
  all_goals rfl

theorem decodeIndirectColumn_congr {b0 b1 b1' b2 b2' : Byte} (h0 : b0.getLsbD 3 = false) (h0' : b0.getLsbD 2 = true)
    (h1 : 1 < instrLength b0 → b1 = b1') (h2 : 2 < instrLength b0 → b2 = b2') :
    decodeIndirectColumn b0 b1 b2 = decodeIndirectColumn b0 b1' b2' := by
  have two : ∀ b : Byte, b.getLsbD 3 = false → b.getLsbD 2 = true → (b.extractLsb' 4 4).toNat ∈ [2, 3, 4, 5] →
      1 < instrLength b := by decide +kernel
  have three : ∀ b : Byte, b.getLsbD 3 = false → b.getLsbD 2 = true → (b.extractLsb' 4 4).toNat ∈ [3, 4] →
      2 < instrLength b := by decide +kernel
  specialize two b0 h0 h0'
  specialize three b0 h0 h0'
  unfold decodeIndirectColumn
  generalize (b0.extractLsb' 4 4).toNat = row at two three ⊢
  split
  case h_3 | h_6 => rw [h1 (two (by decide))]
  case h_4 | h_5 => rw [h1 (two (by decide)), h2 (three (by decide))]
  all_goals rfl

theorem decodeDirectColumn_congr {b0 b1 b2 b2' : Byte} (h0 : b0.getLsbD 3 = false) (h0' : b0.getLsbD 2 = false)
    (h0'' : b0.getLsbD 1 = true) (h2 : 2 < instrLength b0 → b2 = b2') :
    decodeDirectColumn b0 b1 b2 = decodeDirectColumn b0 b1 b2' := by
  have three : ∀ b : Byte, b.getLsbD 3 = false → b.getLsbD 2 = false → b.getLsbD 1 = true →
      (b.extractLsb' 4 4).toNat ∈ [2, 3, 4, 5] → 2 < instrLength b := by decide +kernel
  specialize three b0 h0 h0' h0''
  unfold decodeDirectColumn
  generalize (b0.extractLsb' 4 4).toNat = row at three ⊢
  split
  case h_3 | h_4 | h_5 | h_6 => rw [h2 (three (by decide))]
  all_goals rfl

theorem decodePlainColumn_congr {b0 b1 b1' b2 b2' : Byte} (h0 : b0.getLsbD 3 = false) (h0' : b0.getLsbD 2 = false)
    (h0'' : b0.getLsbD 1 = false) (h1 : 1 < instrLength b0 → b1 = b1') (h2 : 2 < instrLength b0 → b2 = b2') :
    decodePlainColumn b0 b1 b2 = decodePlainColumn b0 b1' b2' := by
  have two : ∀ b : Byte, b.getLsbD 3 = false → b.getLsbD 2 = false → b.getLsbD 1 = false →
      (b.extractLsb' 4 4).toNat ∉ (if b.getLsbD 0 then [5, 0xC] else [0, 3, 4, 5, 0xA, 0xB, 0xC, 0xD, 0xE, 0xF]) →
      1 < instrLength b := by decide +kernel
  have three : ∀ b : Byte, b.getLsbD 3 = false → b.getLsbD 2 = false → b.getLsbD 1 = false →
      (b.extractLsb' 4 4).toNat ∈ (if b.getLsbD 0 then [1, 2, 3, 4] else [1, 2]) → 2 < instrLength b := by
    decide +kernel
  specialize two b0 h0 h0' h0''
  specialize three b0 h0 h0' h0''
  unfold decodePlainColumn
  generalize (b0.extractLsb' 4 4).toNat = row at two three ⊢
  generalize b0.getLsbD 0 = odd at two three ⊢
  cases odd
  case false =>
    split
    case h_2 | h_3 => rw [h1 (two (by decide)), h2 (three (by decide))]
    case h_7 | h_8 | h_9 | h_10 => rw [h1 (two (by decide))]
    all_goals rfl
  case true =>
    split
    case h_2 | h_3 | h_4 | h_5 => rw [h1 (two (by decide)), h2 (three (by decide))]
    case h_6 | h_13 => rfl
    case h_16 => rw [h1 (two (by simp_all))]
    all_goals rw [h1 (two (by decide))]

/-- An operand byte that an instruction does not have plays no part in decoding it (`30_encoding.md` R56). -/
theorem decode_congr {b0 b1 b1' b2 b2' : Byte} (h1 : 1 < instrLength b0 → b1 = b1')
    (h2 : 2 < instrLength b0 → b2 = b2') : decode b0 b1 b2 = decode b0 b1' b2' := by
  have two : ∀ b : Byte, (b.getLsbD 3 = true ∨ b.getLsbD 2 = false ∧ b.getLsbD 1 = true) → 1 < instrLength b := by
    decide +kernel
  specialize two b0
  unfold decode
  split
  · next hbit => rw [h1 (two (.inl hbit)), decodeBitColumn_congr hbit h2]
  · next hbit =>
    have hbit := Bool.eq_false_iff.2 hbit
    split
    · next hind => exact decodeIndirectColumn_congr hbit hind h1 h2
    · next hind =>
      have hind := Bool.eq_false_iff.2 hind
      split
      · next hdir => rw [h1 (two (.inr ⟨hind, hdir⟩)), decodeDirectColumn_congr hbit hind hdir h2]
      · next hdir => exact decodePlainColumn_congr hbit hind (Bool.eq_false_iff.2 hdir) h1 h2

/-! ## The decoder reads back what the encoder writes -/

/-- The forms with a `b3` or `a12` operand: the first byte carries one bit `x` of the address and three bits `n`. -/
theorem decode_bitByte (x : BitVec 1) (n : BitVec 3) (b1 b2 : Byte) :
    decode (0b000#3 ++ x ++ 0b1#1 ++ n) b1 b2 = .call (x ++ n ++ b1)
      ∧ decode (0b001#3 ++ x ++ 0b1#1 ++ n) b1 b2 = .jmp (x ++ n ++ b1)
      ∧ decode (0b010#3 ++ x ++ 0b1#1 ++ n) b1 b2 = .bpc (x ++ b1) n b2
      ∧ decode (0b011#3 ++ x ++ 0b1#1 ++ n) b1 b2 = .bp (x ++ b1) n b2
      ∧ decode (0b100#3 ++ x ++ 0b1#1 ++ n) b1 b2 = .bn (x ++ b1) n b2
      ∧ decode (0b101#3 ++ x ++ 0b1#1 ++ n) b1 b2 = .not1 (x ++ b1) n
      ∧ decode (0b110#3 ++ x ++ 0b1#1 ++ n) b1 b2 = .clr1 (x ++ b1) n
      ∧ decode (0b111#3 ++ x ++ 0b1#1 ++ n) b1 b2 = .set1 (x ++ b1) n := by
  have fields : ∀ (op : BitVec 3) (x : BitVec 1) (n : BitVec 3), (op ++ x ++ 0b1#1 ++ n).getLsbD 3 = true
      ∧ (op ++ x ++ 0b1#1 ++ n).extractLsb' 5 3 = op ∧ (op ++ x ++ 0b1#1 ++ n).extractLsb' 4 1 = x
      ∧ (op ++ x ++ 0b1#1 ++ n).extractLsb' 0 3 = n := by decide +kernel
  simp only [decode, decodeBitColumn, fields]
  simp

/-- The forms with an `@Ri` operand: the first byte ends in the register number. -/
theorem decode_indirectByte (k : IndReg) (b1 b2 : Byte) :
    decode (0b000001#6 ++ k) b1 b2 = .ldInd k ∧ decode (0b000101#6 ++ k) b1 b2 = .stInd k
      ∧ decode (0b001001#6 ++ k) b1 b2 = .movInd b1 k ∧ decode (0b001101#6 ++ k) b1 b2 = .beInd k b1 b2
      ∧ decode (0b010001#6 ++ k) b1 b2 = .bneInd k b1 b2 ∧ decode (0b010101#6 ++ k) b1 b2 = .dbnzInd k b1
      ∧ decode (0b011001#6 ++ k) b1 b2 = .incInd k ∧ decode (0b011101#6 ++ k) b1 b2 = .decInd k
      ∧ decode (0b100001#6 ++ k) b1 b2 = .addInd k ∧ decode (0b100101#6 ++ k) b1 b2 = .addcInd k
      ∧ decode (0b101001#6 ++ k) b1 b2 = .subInd k ∧ decode (0b101101#6 ++ k) b1 b2 = .subcInd k
      ∧ decode (0b110001#6 ++ k) b1 b2 = .xchInd k ∧ decode (0b110101#6 ++ k) b1 b2 = .orInd k
      ∧ decode (0b111001#6 ++ k) b1 b2 = .andInd k ∧ decode (0b111101#6 ++ k) b1 b2 = .xorInd k := by
  match k with
  | 0#2 | 1#2 | 2#2 | 3#2 =>
    exact ⟨rfl, rfl, rfl, rfl, rfl, rfl, rfl, rfl, rfl, rfl, rfl, rfl, rfl, rfl, rfl, rfl⟩

/-- The forms with a `d9` operand alone in the first byte: it ends in the high bit `x` of the address. -/
theorem decode_directByte (x : BitVec 1) (b1 b2 : Byte) :
    decode (0b0000001#7 ++ x) b1 b2 = .ldDir (x ++ b1) ∧ decode (0b0001001#7 ++ x) b1 b2 = .stDir (x ++ b1)
      ∧ decode (0b0010001#7 ++ x) b1 b2 = .movDir b2 (x ++ b1) ∧ decode (0b0011001#7 ++ x) b1 b2 = .beDir (x ++ b1) b2
      ∧ decode (0b0100001#7 ++ x) b1 b2 = .bneDir (x ++ b1) b2 ∧ decode (0b0101001#7 ++ x) b1 b2 = .dbnzDir (x ++ b1) b2
      ∧ decode (0b0110001#7 ++ x) b1 b2 = .incDir (x ++ b1) ∧ decode (0b0111001#7 ++ x) b1 b2 = .decDir (x ++ b1)
      ∧ decode (0b1000001#7 ++ x) b1 b2 = .addDir (x ++ b1) ∧ decode (0b1001001#7 ++ x) b1 b2 = .addcDir (x ++ b1)
      ∧ decode (0b1010001#7 ++ x) b1 b2 = .subDir (x ++ b1) ∧ decode (0b1011001#7 ++ x) b1 b2 = .subcDir (x ++ b1)
      ∧ decode (0b1100001#7 ++ x) b1 b2 = .xchDir (x ++ b1) ∧ decode (0b1101001#7 ++ x) b1 b2 = .orDir (x ++ b1)
      ∧ decode (0b1110001#7 ++ x) b1 b2 = .andDir (x ++ b1) ∧ decode (0b1111001#7 ++ x) b1 b2 = .xorDir (x ++ b1)
      ∧ decode (0b0110000#7 ++ x) b1 b2 = .push (x ++ b1) ∧ decode (0b0111000#7 ++ x) b1 b2 = .pop (x ++ b1) := by
  match x with
  | 0#1 | 1#1 =>
    exact ⟨rfl, rfl, rfl, rfl, rfl, rfl, rfl, rfl, rfl, rfl, rfl, rfl, rfl, rfl, rfl, rfl, rfl, rfl⟩

@[simp] theorem highBit_append_address (d : DataAddr) : d.extractLsb' 8 1 ++ d.extractLsb' 0 8 = d := by
  rw [BitVec.extractLsb'_append_extractLsb'_eq_extractLsb' (by rfl), BitVec.extractLsb'_eq_self]

@[simp] theorem pageBits_append (a : PageAddr) :
    a.extractLsb' 11 1 ++ a.extractLsb' 8 3 ++ a.extractLsb' 0 8 = a := by
  rw [BitVec.extractLsb'_append_extractLsb'_eq_extractLsb' (by rfl),
    BitVec.extractLsb'_append_extractLsb'_eq_extractLsb' (by rfl), BitVec.extractLsb'_eq_self]

@[simp] theorem highByte_append_lowByte (w : BitVec 16) : highByte w ++ lowByte w = w := by
  rw [highByte, lowByte, BitVec.extractLsb'_append_extractLsb'_eq_extractLsb' (by rfl), BitVec.extractLsb'_eq_self]

/-- The forms with a 16-bit operand: `jmpf` and `callf` store it high byte first, `brf` and `callr` low byte first. -/
theorem decode_wordByte (b1 b2 : Byte) :
    decode 0b00100001#8 b1 b2 = .jmpf (b1 ++ b2) ∧ decode 0b00100000#8 b1 b2 = .callf (b1 ++ b2)
      ∧ decode 0b00010001#8 b1 b2 = .brf (b2 ++ b1) ∧ decode 0b00010000#8 b1 b2 = .callr (b2 ++ b1) :=
  ⟨rfl, rfl, rfl, rfl⟩

/-- The first three bytes of an encoding, whatever stands after it, decode to the instruction encoded. -/
theorem decode_encode (i : Instr) (after : List Byte) :
    ∃ b0 operands, encode i = b0 :: operands
      ∧ decode b0 ((operands ++ after).getD 0 0#8) ((operands ++ after).getD 1 0#8) = i := by
  cases i with
  | addImm _ | addcImm _ | subImm _ | subcImm _ | mul | div | andImm _ | orImm _ | xorImm _ | rol | rolc | ror
  | rorc | ldc | ldf | stf | br _ | bz _ | bnz _ | beImm _ _ | bneImm _ _ | ret | reti | nop =>
    exact ⟨_, _, rfl, rfl⟩
  | jmpf _ | brf _ | callf _ | callr _ =>
    exact ⟨_, _, rfl, by simp [decode_wordByte]⟩
  | addDir _ | addcDir _ | subDir _ | subcDir _ | incDir _ | decDir _ | andDir _ | orDir _ | xorDir _ | ldDir _
  | stDir _ | movDir _ _ | push _ | pop _ | xchDir _ | dbnzDir _ _ | beDir _ _ | bneDir _ _ =>
    exact ⟨_, _, rfl, by simp [decode_directByte]⟩
  | addInd _ | addcInd _ | subInd _ | subcInd _ | incInd _ | decInd _ | andInd _ | orInd _ | xorInd _ | ldInd _
  | stInd _ | movInd _ _ | xchInd _ | dbnzInd _ _ | beInd _ _ _ | bneInd _ _ _ =>
    exact ⟨_, _, rfl, by simp [decode_indirectByte]⟩
  | clr1 _ _ | set1 _ _ | not1 _ _ | bp _ _ _ | bpc _ _ _ | bn _ _ _ | jmp _ | call _ =>
    exact ⟨_, _, rfl, by simp [decode_bitByte]⟩

/-- The length that the first byte of an encoding announces is its number of bytes, in all 70 forms. -/
theorem encode_length (i : Instr) : Laws.EncodeLength.Statement i :=
  match i with
  | .addImm v => Laws.EncodeLength.addImm v
  | .addDir d => Laws.EncodeLength.addDir d
  | .addInd k => Laws.EncodeLength.addInd k
  | .addcImm v => Laws.EncodeLength.addcImm v
  | .addcDir d => Laws.EncodeLength.addcDir d
  | .addcInd k => Laws.EncodeLength.addcInd k
  | .subImm v => Laws.EncodeLength.subImm v
  | .subDir d => Laws.EncodeLength.subDir d
  | .subInd k => Laws.EncodeLength.subInd k
  | .subcImm v => Laws.EncodeLength.subcImm v
  | .subcDir d => Laws.EncodeLength.subcDir d
  | .subcInd k => Laws.EncodeLength.subcInd k
  | .incDir d => Laws.EncodeLength.incDir d
  | .incInd k => Laws.EncodeLength.incInd k
  | .decDir d => Laws.EncodeLength.decDir d
  | .decInd k => Laws.EncodeLength.decInd k
  | .mul => Laws.EncodeLength.mul
  | .div => Laws.EncodeLength.div
  | .andImm v => Laws.EncodeLength.andImm v
  | .andDir d => Laws.EncodeLength.andDir d
  | .andInd k => Laws.EncodeLength.andInd k
  | .orImm v => Laws.EncodeLength.orImm v
  | .orDir d => Laws.EncodeLength.orDir d
  | .orInd k => Laws.EncodeLength.orInd k
  | .xorImm v => Laws.EncodeLength.xorImm v
  | .xorDir d => Laws.EncodeLength.xorDir d
  | .xorInd k => Laws.EncodeLength.xorInd k
  | .rol => Laws.EncodeLength.rol
  | .rolc => Laws.EncodeLength.rolc
  | .ror => Laws.EncodeLength.ror
  | .rorc => Laws.EncodeLength.rorc
  | .clr1 d n => Laws.EncodeLength.clr1 d n
  | .set1 d n => Laws.EncodeLength.set1 d n
  | .not1 d n => Laws.EncodeLength.not1 d n
  | .ldDir d => Laws.EncodeLength.ldDir d
  | .ldInd k => Laws.EncodeLength.ldInd k
  | .stDir d => Laws.EncodeLength.stDir d
  | .stInd k => Laws.EncodeLength.stInd k
  | .movDir v d => Laws.EncodeLength.movDir v d
  | .movInd v k => Laws.EncodeLength.movInd v k
  | .ldc => Laws.EncodeLength.ldc
  | .push d => Laws.EncodeLength.push d
  | .pop d => Laws.EncodeLength.pop d
  | .xchDir d => Laws.EncodeLength.xchDir d
  | .xchInd k => Laws.EncodeLength.xchInd k
  | .ldf => Laws.EncodeLength.ldf
  | .stf => Laws.EncodeLength.stf
  | .jmp a => Laws.EncodeLength.jmp a
  | .jmpf a => Laws.EncodeLength.jmpf a
  | .br r => Laws.EncodeLength.br r
  | .brf r => Laws.EncodeLength.brf r
  | .bz r => Laws.EncodeLength.bz r
  | .bnz r => Laws.EncodeLength.bnz r
  | .bp d n r => Laws.EncodeLength.bp d n r
  | .bpc d n r => Laws.EncodeLength.bpc d n r
  | .bn d n r => Laws.EncodeLength.bn d n r
  | .dbnzDir d r => Laws.EncodeLength.dbnzDir d r
  | .dbnzInd k r => Laws.EncodeLength.dbnzInd k r
  | .beImm v r => Laws.EncodeLength.beImm v r
  | .beDir d r => Laws.EncodeLength.beDir d r
  | .beInd k v r => Laws.EncodeLength.beInd k v r
  | .bneImm v r => Laws.EncodeLength.bneImm v r
  | .bneDir d r => Laws.EncodeLength.bneDir d r
  | .bneInd k v r => Laws.EncodeLength.bneInd k v r
  | .call a => Laws.EncodeLength.call a
  | .callf a => Laws.EncodeLength.callf a
  | .callr r => Laws.EncodeLength.callr r
  | .ret => Laws.EncodeLength.ret
  | .reti => Laws.EncodeLength.reti
  | .nop => Laws.EncodeLength.nop

/-- Decoding the bytes of an instruction, whatever stands after them, gives the instruction and the bytes after it. -/
theorem decodeBytes_encode (i : Instr) (after : List Byte) : decodeBytes (encode i ++ after) = .ok (i, after) := by
  obtain ⟨b0, operands, he, hd⟩ := decode_encode i after
  have hlen : instrLength b0 = operands.length + 1 := by
    simpa [Laws.EncodeLength.Statement, he] using encode_length i
  simp only [he, List.cons_append, decodeBytes, hd, hlen]
  simp

/-- A decoding that succeeds has found a first byte, the operand bytes it asks for, and the instruction they make. -/
theorem decodeBytes_eq_ok {bytes after : List Byte} {i : Instr} (h : decodeBytes bytes = .ok (i, after)) :
    ∃ b0 operands, bytes = b0 :: operands ∧ instrLength b0 ≤ operands.length + 1
      ∧ decode b0 (operands.getD 0 0#8) (operands.getD 1 0#8) = i := by
  cases bytes with
  | nil => simp [decodeBytes] at h
  | cons b0 operands =>
    simp only [decodeBytes] at h
    split at h
    · cases h
    · next hlen =>
      injection h with h
      injection h with hi _
      exact ⟨b0, operands, rfl, by omega, hi⟩

/-- What an opcode-table word decodes to is what its bytes decode to. -/
theorem decodeTableWord_eq_some {nbits w : Nat} {i : Instr} (h : decodeTableWord nbits w = some i) :
    ∃ after, decodeBytes (tableBytes nbits w) = .ok (i, after) := by
  unfold decodeTableWord at h
  split at h
  · next after hdec =>
    cases h
    exact ⟨after, hdec⟩
  · cases h

end Sys2Proof

namespace Sys2Proof.Machine

open Sys2Proof.Claims

/-! ## Placed bytes -/

/-- Placing bytes leaves every cell alone that none of them goes to. -/
theorem read_placeBytes_other (m : Memory) (a : CodeAddr) (bytes : List Byte) {key : Nat}
    (h : ∀ j < bytes.length, key ≠ (a + BitVec.ofNat 16 j).toNat) :
    Memory.read (placeBytes m a bytes) key = Memory.read m key := by
  induction bytes generalizing m a with
  | nil => rfl
  | cons v rest ih =>
    have hrest : ∀ j < rest.length, key ≠ (a + 1#16 + BitVec.ofNat 16 j).toNat := by
      intro j hj
      have := h (j + 1) (by simpa using hj)
      rwa [Nat.add_comm j 1, BitVec.ofNat_add, ← BitVec.add_assoc] at this
    rw [placeBytes, ih _ _ hrest, Memory.read_write_other _ _ (by simpa using h 0 (by simp))]

/-- Bytes that fit into the code space are found where they were placed, addresses mod 65536. -/
theorem read_placeBytes (m : Memory) (a : CodeAddr) {bytes : List Byte} (hfit : bytes.length ≤ Config.codeSize)
    {k : Nat} {v : Byte} (hk : bytes[k]? = some v) :
    Memory.read (placeBytes m a bytes) (a + BitVec.ofNat 16 k).toNat = some v := by
  induction bytes generalizing m a k with
  | nil => simp at hk
  | cons w rest ih =>
    simp only [List.length_cons, Config.codeSize] at hfit
    cases k with
    | zero =>
      obtain rfl : w = v := by simpa using hk
      have hother : ∀ j < rest.length, (a + BitVec.ofNat 16 0).toNat ≠ (a + 1#16 + BitVec.ofNat 16 j).toNat := by
        intro j hj
        simp only [BitVec.toNat_add, BitVec.toNat_ofNat]
        omega
      rw [placeBytes, read_placeBytes_other _ _ _ hother]
      simp
    | succ k =>
      have := ih (Memory.write m a.toNat w) (a + 1#16) (by simp only [Config.codeSize]; omega) (by simpa using hk)
      rwa [BitVec.add_assoc, ← BitVec.ofNat_add, Nat.add_comm 1 k] at this

/-- The bytes that `loadAtPc` places stand at `pc`. -/
theorem codeHolds_loadAtPc (s : State) {bytes : List Byte} (hfit : bytes.length ≤ Config.codeSize) :
    codeHolds (s.loadAtPc bytes) bytes := fun _ _ hk =>
  State.codeRead_eq_next.2 (read_placeBytes s.code s.pc hfit hk)

/-! ## Fetch -/

/-- Where an instruction's bytes stand at `pc`, byte `k` of it is answered, and is the byte that stands there if the
instruction has it. -/
theorem operandByte_of_codeHolds {s : State} {b0 : Byte} {operands : List Byte} (hold : codeHolds s (b0 :: operands))
    (hlen : instrLength b0 ≤ operands.length + 1) (k : Nat) :
    ∃ v, s.operandByte b0 (k + 1) = .next v ∧ (k + 1 < instrLength b0 → operands.getD k 0#8 = v) := by
  unfold State.operandByte
  split
  · next hk =>
    have hlt : k < operands.length := by omega
    exact ⟨operands[k], hold (k + 1) _ (by simp [hlt]), fun _ => by simp [hlt]⟩
  · next hk => exact ⟨0#8, rfl, fun h => absurd h hk⟩

/-- A fetch finds the instruction that the bytes at `pc` decode to. -/
theorem fetch_of_codeHolds {s : State} {bytes after : List Byte} {i : Instr} (hold : codeHolds s bytes)
    (hdec : decodeBytes bytes = .ok (i, after)) : s.fetch = .next i := by
  obtain ⟨b0, operands, rfl, hlen, rfl⟩ := decodeBytes_eq_ok hdec
  have hb0 : s.codeRead s.pc = .next b0 := by simpa using hold 0 b0 rfl
  obtain ⟨b1, hread1, hb1⟩ := operandByte_of_codeHolds hold hlen 0
  obtain ⟨b2, hread2, hb2⟩ := operandByte_of_codeHolds hold hlen 1
  rw [State.fetch, hb0, onValue_next, hread1, onValue_next, hread2, onValue_next, decode_congr hb1 hb2]

/-! ## The boundary and the step -/

theorem boundary_of_no_moves {s : State} (h : s.agent = []) : s.boundary = .run s := by
  rw [State.boundary, h]

theorem boundary_of_quiet {s : State} {moves : List AgentMove} (h : s.agent = .quiet :: moves) :
    s.boundary = .run { s with agent := moves } := by
  rw [State.boundary, h]

theorem boundary_of_held_request {s : State} {vector : CodeAddr} {moves : List AgentMove}
    (h : s.agent = .request vector :: moves) (hold : s.intHold = true) : s.boundary = .run s := by
  simp [State.boundary, h, hold]

/-- A step at a boundary that runs fetches, executes and ticks. -/
theorem step_of_boundary_run {s t : State} (hb : s.boundary = .run t) :
    step s = onValue t.fetch fun i => onValue (exec i t) fun u => .next u.tick := by
  simp only [step, hb]

/-- A step at a boundary that runs is `exec` of the instruction whose bytes stand at `pc`, then a tick. -/
theorem step_of_codeHolds {s t : State} {bytes after : List Byte} {i : Instr} (hb : s.boundary = .run t)
    (hold : codeHolds t bytes) (hdec : decodeBytes bytes = .ok (i, after)) :
    step s = onValue (exec i t) fun u => .next u.tick := by
  rw [step_of_boundary_run hb, fetch_of_codeHolds hold hdec, onValue_next]

/-- Settles O44: a fetch at a boundary that runs finds the instruction encoded at `pc`. -/
theorem stepRunsTheInstructionAtPc : Obligations.StepRunsTheInstructionAtPc := by
  refine ⟨fun _ => boundary_of_no_moves, fun _ _ => boundary_of_quiet, fun _ _ _ => boundary_of_held_request, ?_⟩
  intro s t i hb hold
  have hstep : step s = onValue (exec i t) fun u => .next u.tick :=
    step_of_codeHolds hb hold (by simpa using decodeBytes_encode i [])
  refine ⟨?_, ?_, ?_⟩
  · intro u hu
    rw [hstep, hu, onValue_next, State.tick]
  · intro f hf
    rw [hstep, hf, onValue_fault]
  · intro r hr
    rw [hstep, hr, onValue_refused]

/-- Settles O45: the bytes placed at `pc` are those of the word, and no move of the agent comes between. -/
theorem stepRunsThePlacedTableWord : Obligations.StepRunsThePlacedTableWord := by
  intro s nbits w i hword
  obtain ⟨after, hdec⟩ := decodeTableWord_eq_some hword
  have hfit : (tableBytes nbits w).length ≤ Config.codeSize := by simp [tableBytes, Config.codeSize]
  exact step_of_codeHolds (boundary_of_no_moves rfl) (codeHolds_loadAtPc s hfit) hdec

end Sys2Proof.Machine
end

section
/-! SUPPORT. What an instruction can do, said once for all 70 forms: it makes at most one kind of memory access (`Access`),
and beyond it writes no more than its own registers and flags (`KeepsRest`). -/

namespace Sys2Proof.Machine

open Sys2Proof.Claims

/-! ## Bits of `psw` -/

theorem sameBitsBut_refl (bits : List Nat) (v : Byte) : sameBitsBut bits v v := fun _ _ => rfl

theorem sameBitsBut_trans {bits : List Nat} {u v w : Byte} (huv : sameBitsBut bits u v) (hvw : sameBitsBut bits v w) :
    sameBitsBut bits u w := fun n hn => (hvw n hn).trans (huv n hn)

theorem sameBitsBut_withBit {bits : List Nat} {n : Nat} (hn : n ∈ bits) (hlt : n < 8) (v : Byte) (x : Bool) :
    sameBitsBut bits v (withBit v n x) := by
  intro m hm
  rw [getLsbD_withBit v n m x hlt, if_neg (ne_of_mem_of_not_mem hn hm).symm]

/-- No flag stands in the bits of `psw` that hold nothing (`10_state.md` R24, R25). -/
theorem flagBits_subset (i : Instr) : i.flagBits ⊆ [7, 6, 2] := by
  unfold Instr.flagBits
  split <;> simp

/-! ## Where a data write goes among the named registers -/

/-- The data address of a named register (`10_state.md` R23). -/
def NamedReg.addr : NamedReg → DataAddr
  | .acc => Config.addrAcc
  | .psw => Config.addrPsw
  | .b => Config.addrB
  | .c => Config.addrC
  | .trl => Config.addrTrl
  | .trh => Config.addrTrh
  | .sp => Config.addrSp

theorem addr_of_cellAt_reg {a : DataAddr} {r : NamedReg} (h : cellAt a = .reg r) : a = r.addr := by
  unfold cellAt at h
  split_ifs at h <;> cases h <;> assumption

/-- A data write changes a named register only at that register's address (`20_memory.md` R31). -/
theorem State.dataWrite_registers {s t : State} {a : DataAddr} {v : Byte} (h : s.dataWrite a v = .next t) :
    (a ≠ Config.addrAcc → t.acc = s.acc) ∧ (a ≠ Config.addrPsw → t.psw = s.psw) ∧ (a ≠ Config.addrB → t.b = s.b)
      ∧ (a ≠ Config.addrC → t.c = s.c) ∧ (a ≠ Config.addrTrl → t.trl = s.trl) ∧ (a ≠ Config.addrTrh → t.trh = s.trh)
      ∧ (a ≠ Config.addrSp → t.sp = s.sp) := by
  rcases State.dataWrite_eq_next.1 h with ⟨cell, -, rfl⟩ | ⟨r, hr, rfl⟩ | ⟨-, -, rfl⟩
  · simp
  · obtain rfl := addr_of_cellAt_reg hr
    cases r <;> simp [State.regWrite, NamedReg.addr]
  · simp

/-! ## What an instruction leaves alone beside its memory access -/

/-- The code space, flash, the launch parameters, the agent and the draw counter are the same. -/
structure SameSurroundings (s t : State) : Prop where
  code : t.code = s.code := by rfl
  flash : t.flash = s.flash := by rfl
  agent : t.agent = s.agent := by rfl
  riPtrBank : t.riPtrBank = s.riPtrBank := by rfl
  devicePolicy : t.devicePolicy = s.devicePolicy := by rfl
  draws : t.draws = s.draws := by rfl

theorem SameSurroundings.trans {s t u : State} (hst : SameSurroundings s t) (htu : SameSurroundings t u) :
    SameSurroundings s u where
  code := htu.code.trans hst.code
  flash := htu.flash.trans hst.flash
  agent := htu.agent.trans hst.agent
  riPtrBank := htu.riPtrBank.trans hst.riPtrBank
  devicePolicy := htu.devicePolicy.trans hst.devicePolicy
  draws := htu.draws.trans hst.draws

/-- From `s` to `t` nothing changes but `pc`, the implicit destinations of `i` (`10_state.md` R11, R12), its flags (R25)
and, in `reti`, `int_hold`. A field that is not mentioned where this is proved is unchanged by `rfl`. -/
structure KeepsRest (i : Instr) (s t : State) : Prop extends SameSurroundings s t where
  acc : i.writesAcc = false → t.acc = s.acc := by intros; rfl
  b : i ≠ .mul → i ≠ .div → t.b = s.b := by intros; rfl
  c : i ≠ .mul → i ≠ .div → t.c = s.c := by intros; rfl
  trl : t.trl = s.trl := by rfl
  trh : t.trh = s.trh := by rfl
  sp : t.sp = s.sp := by rfl
  psw : sameBitsBut i.flagBits s.psw t.psw := by exact sameBitsBut_refl _ _
  ram : t.ram = s.ram := by rfl
  intHold : i ≠ .reti → t.intHold = s.intHold := by intros; rfl
  deviceWrites : t.deviceWrites = s.deviceWrites := by rfl

namespace KeepsRest

variable {i : Instr} {s t u : State}

theorem trans (hst : KeepsRest i s t) (htu : KeepsRest i t u) : KeepsRest i s u where
  toSameSurroundings := hst.toSameSurroundings.trans htu.toSameSurroundings
  acc h := (htu.acc h).trans (hst.acc h)
  b hmul hdiv := (htu.b hmul hdiv).trans (hst.b hmul hdiv)
  c hmul hdiv := (htu.c hmul hdiv).trans (hst.c hmul hdiv)
  trl := htu.trl.trans hst.trl
  trh := htu.trh.trans hst.trh
  sp := htu.sp.trans hst.sp
  psw := sameBitsBut_trans hst.psw htu.psw
  ram := htu.ram.trans hst.ram
  intHold h := (htu.intHold h).trans (hst.intHold h)
  deviceWrites := htu.deviceWrites.trans hst.deviceWrites

theorem jumpTo (target : CodeAddr) : KeepsRest i s (s.jumpTo target) := {}

theorem advance (len : Nat) : KeepsRest i s (s.advance len) := jumpTo _

theorem branchIf (taken : Bool) (len : Nat) (r : Byte) : KeepsRest i s (s.branchIf taken len r) := jumpTo _

theorem setAcc (hacc : i.writesAcc = true) (v : Byte) : KeepsRest i s (s.setAcc v) :=
  { acc := fun h => absurd hacc (by simp [h]) }

theorem setCy (h : 7 ∈ i.flagBits) (x : Bool) : KeepsRest i s (s.setCy x) :=
  { psw := sameBitsBut_withBit h (by decide) _ x }

theorem setAc (h : 6 ∈ i.flagBits) (x : Bool) : KeepsRest i s (s.setAc x) :=
  { psw := sameBitsBut_withBit h (by decide) _ x }

theorem setOv (h : 2 ∈ i.flagBits) (x : Bool) : KeepsRest i s (s.setOv x) :=
  { psw := sameBitsBut_withBit h (by decide) _ x }

theorem setArith (h : i.flagBits = [7, 6, 2]) (cy ac ov : Bool) : KeepsRest i s (s.setArith cy ac ov) :=
  ((setCy (by simp [h]) cy).trans (setAc (by simp [h]) ac)).trans (setOv (by simp [h]) ov)

theorem addStep (hacc : i.writesAcc = true) (h : i.flagBits = [7, 6, 2]) (m : Byte) (k : Bool) (len : Nat) :
    KeepsRest i s (s.addStep m k len) :=
  ((setAcc hacc _).trans (setArith h _ _ _)).trans (advance len)

theorem subStep (hacc : i.writesAcc = true) (h : i.flagBits = [7, 6, 2]) (m : Byte) (k : Bool) (len : Nat) :
    KeepsRest i s (s.subStep m k len) :=
  ((setAcc hacc _).trans (setArith h _ _ _)).trans (advance len)

theorem loadAcc (hacc : i.writesAcc = true) (v : Byte) (len : Nat) : KeepsRest i s ((s.setAcc v).advance len) :=
  (setAcc hacc v).trans (advance len)

theorem logicStep (hacc : i.writesAcc = true) (f : Byte → Byte → Byte) (m : Byte) (len : Nat) :
    KeepsRest i s (s.logicStep f m len) := loadAcc hacc _ len

theorem rotateThroughCy (hacc : i.writesAcc = true) (h : i.flagBits = [7]) (v : Byte) (x : Bool) (len : Nat) :
    KeepsRest i s (((s.setAcc v).setCy x).advance len) :=
  ((setAcc hacc v).trans (setCy (by simp [h]) x)).trans (advance len)

theorem compareStep (h : i.flagBits = [7]) (x y : Byte) (wanted : Bool) (r : Byte) :
    KeepsRest i s (s.compareStep x y wanted r) :=
  (setCy (by simp [h]) _).trans (branchIf _ 3 r)

/-- `mul` and `div` write `b`, `acc`, `c`, `cy` and `ov` (`40_arithmetic.md` R76, R77). -/
theorem mulDivResult (hi : i = .mul ∨ i = .div) (b acc c : Byte) (x y : Bool) (len : Nat) :
    KeepsRest i s (((({ s with b := b, acc := acc, c := c } : State).setCy x).setOv y).advance len) := by
  have hacc : i.writesAcc = true := by rcases hi with rfl | rfl <;> rfl
  have hflags : i.flagBits = [7, 2] := by rcases hi with rfl | rfl <;> rfl
  have hregs : KeepsRest i s { s with b := b, acc := acc, c := c } :=
    { acc := fun h => absurd hacc (by simp [h])
      b := fun hmul hdiv => absurd hi (not_or.2 ⟨hmul, hdiv⟩)
      c := fun hmul hdiv => absurd hi (not_or.2 ⟨hmul, hdiv⟩) }
  exact ((hregs.trans (setCy (by simp [hflags]) x)).trans (setOv (by simp [hflags]) y)).trans (advance len)

end KeepsRest

/-! ## The memory access of an instruction -/

/-- The access to the data space or the stack that `i` makes from `s`, and the state after it; a read changes nothing
(`20_memory.md` R37). `pop` writes its operand before `sp` moves (`43_data_transfer.md` R105). -/
inductive Access (i : Instr) (s : State) : State → Prop
  | none (hpush : i.pushes = 0) (hpop : i.pops = 0) : Access i s s
  | store {a : DataAddr} {v : Byte} {u : State} (hpush : i.pushes = 0) (hpop : i.pops = 0)
      (haddr : i.storeAddr s = some a) (hwrite : s.dataWrite a v = .next u) : Access i s u
  | push (v : Byte) (hpush : i.pushes = 1) (hpop : i.pops = 0) : Access i s (s.push v)
  | pushAddr (w : CodeAddr) (hpush : i.pushes = 2) (hpop : i.pops = 0) : Access i s (s.pushAddr w)
  | pop {a : DataAddr} {v : Byte} {u : State} (hpush : i.pushes = 0) (hpop : i.pops = 1)
      (haddr : i.storeAddr s = some a) (hwrite : s.dataWrite a v = .next u) : Access i s { u with sp := u.sp - 1#8 }
  | popPc (hpush : i.pushes = 0) (hpop : i.pops = 2) : Access i s { s with sp := s.sp - 1#8 - 1#8 }

theorem State.dataWrite_surroundings {s t : State} {a : DataAddr} {v : Byte} (h : s.dataWrite a v = .next t) :
    SameSurroundings s t := by
  obtain ⟨-, hcode, hflash, -, hagent, hbank, hpolicy, hdraws⟩ := State.dataWrite_frame h
  exact ⟨hcode, hflash, hagent, hbank, hpolicy, hdraws⟩

theorem State.dataWrite_intHold {s t : State} {a : DataAddr} {v : Byte} (h : s.dataWrite a v = .next t) :
    t.intHold = s.intHold := by
  obtain ⟨-, -, -, hhold, -⟩ := State.dataWrite_frame h
  exact hhold

namespace Access

variable {i : Instr} {s u : State}

theorem surroundings (h : Access i s u) : SameSurroundings s u := by
  cases h with
  | none | push | pushAddr | popPc => exact {}
  | store _ _ _ hwrite => exact State.dataWrite_surroundings hwrite
  | pop _ _ _ hwrite => exact (State.dataWrite_surroundings hwrite).trans {}

theorem intHold (h : Access i s u) : u.intHold = s.intHold := by
  cases h with
  | none | push | pushAddr | popPc => rfl
  | store _ _ _ hwrite => exact State.dataWrite_intHold hwrite
  | pop _ _ _ hwrite => exact (State.dataWrite_intHold hwrite :)

/-- An access changes a named register other than `sp` only by a data write to its address. -/
theorem registers (h : Access i s u) :
    (i.storeAddr s ≠ some Config.addrAcc → u.acc = s.acc) ∧ (i.storeAddr s ≠ some Config.addrPsw → u.psw = s.psw)
      ∧ (i.storeAddr s ≠ some Config.addrB → u.b = s.b) ∧ (i.storeAddr s ≠ some Config.addrC → u.c = s.c)
      ∧ (i.storeAddr s ≠ some Config.addrTrl → u.trl = s.trl)
      ∧ (i.storeAddr s ≠ some Config.addrTrh → u.trh = s.trh) := by
  cases h with
  | none | push | pushAddr | popPc => simp
  | store _ _ haddr hwrite | pop _ _ haddr hwrite =>
    obtain ⟨hacc, hpsw, hb, hc, htrl, htrh, -⟩ := State.dataWrite_registers hwrite
    simp only [haddr, ne_eq, Option.some.injEq]
    exact ⟨hacc, hpsw, hb, hc, htrl, htrh⟩

/-- `sp` moves up by the bytes pushed and down by the bytes popped, where no data write goes to it. -/
theorem sp (h : Access i s u) (haddr : i.storeAddr s ≠ some Config.addrSp) :
    u.sp = s.sp + BitVec.ofNat 8 i.pushes - BitVec.ofNat 8 i.pops := by
  cases h with
  | none hpush hpop => simp [hpush, hpop]
  | store hpush hpop ha hwrite =>
    obtain ⟨-, -, -, -, -, -, hsp⟩ := State.dataWrite_registers hwrite
    simp [hpush, hpop, hsp (by simpa [ha] using haddr)]
  | push v hpush hpop => simp [hpush, hpop]
  | pushAddr w hpush hpop => simp [hpush, hpop, BitVec.add_assoc]
  | pop hpush hpop ha hwrite =>
    obtain ⟨-, -, -, -, -, -, hsp⟩ := State.dataWrite_registers hwrite
    simp [hpush, hpop, hsp (by simpa [ha] using haddr)]
  | popPc hpush hpop => rw [hpush, hpop]; bv_omega

end Access

/-! ## Access, then registers -/

/-- `t` is a state that `i` can lead to from `s`: its memory access, and then its own registers and flags. -/
def Effect (i : Instr) (s t : State) : Prop := ∃ u, Access i s u ∧ KeepsRest i u t

namespace Effect

variable {i : Instr} {s t : State}

theorem of_keepsRest (hpush : i.pushes = 0) (hpop : i.pops = 0) (h : KeepsRest i s t) : Effect i s t :=
  ⟨s, .none hpush hpop, h⟩

/-- An instruction that reads a value and then writes registers alone. -/
theorem of_read {α : Type} {r : Result α} {f : α → State} (hpush : i.pushes = 0) (hpop : i.pops = 0)
    (h : onValue r (fun m => .next (f m)) = .next t) (hf : ∀ m, KeepsRest i s (f m)) : Effect i s t := by
  obtain ⟨m, -, hm⟩ := onValue_eq_next.1 h
  cases hm
  exact of_keepsRest hpush hpop (hf m)

/-- An instruction that writes a cell and then registers alone. -/
theorem of_write {a : DataAddr} {v : Byte} {f : State → State} (hpush : i.pushes = 0) (hpop : i.pops = 0)
    (haddr : i.storeAddr s = some a) (h : onValue (s.dataWrite a v) (fun u => .next (f u)) = .next t)
    (hf : ∀ u, KeepsRest i u (f u)) : Effect i s t := by
  obtain ⟨u, hwrite, hu⟩ := onValue_eq_next.1 h
  cases hu
  exact ⟨u, .store hpush hpop haddr hwrite, hf u⟩

theorem of_modifyCell {a : DataAddr} {f : Byte → Byte} {len : Nat} (hpush : i.pushes = 0) (hpop : i.pops = 0)
    (haddr : i.storeAddr s = some a) (h : s.modifyCell a f len = .next t) : Effect i s t := by
  obtain ⟨v, u, -, hwrite, rfl⟩ := State.modifyCell_eq_next.1 h
  exact ⟨u, .store hpush hpop haddr hwrite, .advance len⟩

theorem of_storeStep {a : DataAddr} {v : Byte} {len : Nat} (hpush : i.pushes = 0) (hpop : i.pops = 0)
    (haddr : i.storeAddr s = some a) (h : s.storeStep a v len = .next t) : Effect i s t :=
  of_write hpush hpop haddr h fun _ => .advance len

theorem of_exchangeStep {a : DataAddr} {len : Nat} (hpush : i.pushes = 0) (hpop : i.pops = 0)
    (hacc : i.writesAcc = true) (haddr : i.storeAddr s = some a) (h : s.exchangeStep a len = .next t) :
    Effect i s t := by
  obtain ⟨v, -, h⟩ := onValue_eq_next.1 h
  exact of_write hpush hpop haddr h fun _ => .loadAcc hacc v len

theorem of_countDownStep {a : DataAddr} {len : Nat} {r : Byte} (hpush : i.pushes = 0) (hpop : i.pops = 0)
    (haddr : i.storeAddr s = some a) (h : s.countDownStep a len r = .next t) : Effect i s t := by
  obtain ⟨v, -, h⟩ := onValue_eq_next.1 h
  exact of_write hpush hpop haddr h fun _ => .branchIf _ len r

theorem of_callStep (hpush : i.pushes = 2) (hpop : i.pops = 0) (len : Nat) (target : CodeAddr) :
    Effect i s (s.callStep len target) :=
  ⟨_, .pushAddr _ hpush hpop, .jumpTo target⟩

theorem of_popPc (hpush : i.pushes = 0) (hpop : i.pops = 2) (h : s.popPc = .next t) : Effect i s t := by
  obtain ⟨high, low, -, -, rfl⟩ := State.popPc_eq_next.1 h
  exact ⟨_, .popPc hpush hpop, .jumpTo (high ++ low)⟩

theorem of_execBpc {d : DataAddr} {n : BitNum} {r : Byte} (h : execBpc d n r s = .next t) :
    Effect (.bpc d n r) s t := by
  obtain ⟨v, -, h⟩ := onValue_eq_next.1 h
  split at h
  · exact of_write rfl rfl rfl h fun _ => .branchIf true 3 r
  · cases h
    exact of_keepsRest rfl rfl (.branchIf false 3 r)

theorem of_execPush {d : DataAddr} (h : execPush d s = .next t) : Effect (.push d) s t := by
  unfold execPush at h
  split at h
  · cases h
  · obtain ⟨v, -, h⟩ := onValue_eq_next.1 h
    cases h
    exact ⟨_, .push v rfl rfl, .advance 2⟩

theorem of_execPop {d : DataAddr} (h : execPop d s = .next t) : Effect (.pop d) s t := by
  unfold execPop at h
  split at h
  · cases h
  · obtain ⟨v, -, h⟩ := onValue_eq_next.1 h
    obtain ⟨u, hwrite, h⟩ := onValue_eq_next.1 h
    cases h
    exact ⟨_, .pop rfl rfl rfl hwrite, .advance 2⟩

theorem of_execReti (h : execReti s = .next t) : Effect .reti s t := by
  obtain ⟨u, hpop, rfl⟩ := State.returnFromInterrupt_eq_next.1 h
  obtain ⟨v, haccess, hrest⟩ := of_popPc (i := .reti) rfl rfl hpop
  exact ⟨v, haccess, hrest.trans { intHold := fun h => absurd rfl h }⟩

end Effect

/-- What each of the 70 forms can do. -/
theorem exec_effect {i : Instr} {s t : State} (h : exec i s = .next t) : Effect i s t := by
  cases i with
  | addImm _ | addcImm _ =>
    cases h
    exact .of_keepsRest rfl rfl (.addStep rfl rfl _ _ _)
  | addDir _ | addcDir _ | addInd _ | addcInd _ => exact .of_read rfl rfl h fun _ => .addStep rfl rfl _ _ _
  | subImm _ | subcImm _ =>
    cases h
    exact .of_keepsRest rfl rfl (.subStep rfl rfl _ _ _)
  | subDir _ | subcDir _ | subInd _ | subcInd _ => exact .of_read rfl rfl h fun _ => .subStep rfl rfl _ _ _
  | andImm _ | orImm _ | xorImm _ =>
    cases h
    exact .of_keepsRest rfl rfl (.logicStep rfl _ _ _)
  | andDir _ | orDir _ | xorDir _ | andInd _ | orInd _ | xorInd _ =>
    exact .of_read rfl rfl h fun _ => .logicStep rfl _ _ _
  | mul =>
    cases h
    exact .of_keepsRest rfl rfl (.mulDivResult (.inl rfl) _ _ _ _ _ _)
  | div =>
    cases h
    exact .of_keepsRest rfl rfl (.mulDivResult (.inr rfl) _ _ _ _ _ _)
  | rol | ror =>
    cases h
    exact .of_keepsRest rfl rfl (.loadAcc rfl _ _)
  | rolc | rorc =>
    cases h
    exact .of_keepsRest rfl rfl (.rotateThroughCy rfl rfl _ _ _)
  | ldDir _ | ldInd _ | ldc => exact .of_read rfl rfl h fun _ => .loadAcc rfl _ _
  | incDir _ | decDir _ | clr1 _ _ | set1 _ _ | not1 _ _ => exact .of_modifyCell rfl rfl rfl h
  | incInd _ | decInd _ =>
    obtain ⟨ea, hea, h⟩ := onValue_eq_next.1 h
    exact .of_modifyCell rfl rfl (by simp [Instr.storeAddr, hea]) h
  | stDir _ | movDir _ _ => exact .of_storeStep rfl rfl rfl h
  | stInd _ | movInd _ _ =>
    obtain ⟨ea, hea, h⟩ := onValue_eq_next.1 h
    exact .of_storeStep rfl rfl (by simp [Instr.storeAddr, hea]) h
  | xchDir _ => exact .of_exchangeStep rfl rfl rfl rfl h
  | xchInd _ =>
    obtain ⟨ea, hea, h⟩ := onValue_eq_next.1 h
    exact .of_exchangeStep rfl rfl rfl (by simp [Instr.storeAddr, hea]) h
  | dbnzDir _ _ => exact .of_countDownStep rfl rfl rfl h
  | dbnzInd _ _ =>
    obtain ⟨ea, hea, h⟩ := onValue_eq_next.1 h
    exact .of_countDownStep rfl rfl (by simp [Instr.storeAddr, hea]) h
  | push _ => exact .of_execPush h
  | pop _ => exact .of_execPop h
  | ldf | stf => cases h
  | jmp _ | jmpf _ | br _ | brf _ | bz _ | bnz _ | nop =>
    cases h
    exact .of_keepsRest rfl rfl (.jumpTo _)
  | bp _ _ _ | bn _ _ _ => exact .of_read rfl rfl h fun _ => .branchIf _ _ _
  | bpc _ _ _ => exact .of_execBpc h
  | beImm _ _ | bneImm _ _ =>
    cases h
    exact .of_keepsRest rfl rfl (.compareStep rfl _ _ _ _)
  | beDir _ _ | beInd _ _ _ | bneDir _ _ | bneInd _ _ _ =>
    exact .of_read rfl rfl h fun _ => .compareStep rfl _ _ _ _
  | call _ | callf _ | callr _ =>
    cases h
    exact .of_callStep rfl rfl _ _
  | ret => exact .of_popPc rfl rfl h
  | reti => exact .of_execReti h

end Sys2Proof.Machine
end

section
/-! SUPPORT. Frames over all instructions: which registers, which bits of `psw` and which of the state's surroundings an
instruction changes (`10_state.md` R11 to R25). -/

namespace Sys2Proof.Machine

open Sys2Proof.Claims

theorem exec_surroundings {i : Instr} {s t : State} (h : exec i s = .next t) : SameSurroundings s t := by
  obtain ⟨u, haccess, hrest⟩ := exec_effect h
  exact haccess.surroundings.trans hrest.toSameSurroundings

/-- `reti` clears `int_hold` and every other instruction keeps it (`60_exceptions.md` R146). -/
theorem exec_intHold {i : Instr} {s t : State} (h : exec i s = .next t) :
    t.intHold = (s.intHold && decide (i ≠ .reti)) := by
  by_cases hi : i = .reti
  · subst hi
    obtain ⟨u, -, rfl⟩ := State.returnFromInterrupt_eq_next.1 h
    simp
  · obtain ⟨u, haccess, hrest⟩ := exec_effect h
    simp [hi, hrest.intHold hi, haccess.intHold]

/-- Settles O50: the access gives what a data write, a push or a pop changes, and the rest is the implicit destinations. -/
theorem registersChangeOnlyWhereWritten : Obligations.RegistersChangeOnlyWhereWritten := by
  intro i s t h
  obtain ⟨u, haccess, hrest⟩ := exec_effect h
  obtain ⟨hacc, -, hb, hc, htrl, htrh⟩ := haccess.registers
  obtain ⟨hcode, hflash, hagent, hbank, hpolicy, hdraws⟩ := exec_surroundings h
  exact ⟨fun hi ha => (hrest.acc hi).trans (hacc ha), fun hmul hdiv ha => (hrest.b hmul hdiv).trans (hb ha),
    fun hmul hdiv ha => (hrest.c hmul hdiv).trans (hc ha), fun ha => hrest.trl.trans (htrl ha),
    fun ha => hrest.trh.trans (htrh ha), fun ha => hrest.sp.trans (haccess.sp ha),
    hcode, hflash, hbank, hpolicy, hagent, hdraws⟩

/-- Settles O51: an access changes `psw` only by a data write to it, and what follows changes the flags alone. -/
theorem pswBitsChangeOnlyWhereWritten : Obligations.PswBitsChangeOnlyWhereWritten := by
  intro i s t h haddr
  obtain ⟨u, haccess, hrest⟩ := exec_effect h
  obtain ⟨-, hpsw, -⟩ := haccess.registers
  exact hpsw haddr ▸ hrest.psw

end Sys2Proof.Machine
end

section
/-! SUPPORT. What every step keeps: a step delivers an interrupt or runs one instruction, so each invariant is a fact about
interrupt entry and one about `exec` (`10_state.md` R10, R19, R22, R24, `60_exceptions.md` R143). -/

namespace Sys2Proof.Machine

open Sys2Proof.Claims

/-! ## What a step can do -/

theorem boundary_eq_deliver {s t : State} (h : s.boundary = .deliver t) :
    ∃ vector moves, s.agent = .request vector :: moves ∧ t = { s with agent := moves }.takeInterrupt vector := by
  unfold State.boundary at h
  split at h
  · cases h
  · cases h
  · next vector moves hagent =>
    split at h
    · cases h
    · cases h
      exact ⟨vector, moves, hagent, rfl⟩

theorem boundary_eq_run {s u : State} (h : s.boundary = .run u) :
    ∃ moves, moves <:+ s.agent ∧ u = { s with agent := moves } := by
  unfold State.boundary at h
  split at h
  · cases h
    exact ⟨s.agent, List.suffix_refl _, rfl⟩
  · next moves hagent =>
    cases h
    exact ⟨moves, hagent ▸ List.suffix_cons _ _, rfl⟩
  · split at h
    · cases h
      exact ⟨s.agent, List.suffix_refl _, rfl⟩
    · cases h

/-- A step that goes on delivers an interrupt that the agent asks for, or uses up moves of the agent and runs one
instruction. -/
theorem step_eq_next {s t : State} (h : step s = .next t) :
    (∃ vector moves, s.agent = .request vector :: moves ∧ t = { s with agent := moves }.takeInterrupt vector)
      ∨ ∃ moves i u, moves <:+ s.agent ∧ exec i { s with agent := moves } = .next u ∧ t = u.tick := by
  unfold step at h
  split at h
  · next hb =>
    cases h
    exact .inl (boundary_eq_deliver hb)
  · next hb =>
    obtain ⟨moves, hmoves, rfl⟩ := boundary_eq_run hb
    obtain ⟨i, -, h⟩ := onValue_eq_next.1 h
    obtain ⟨u, hu, h⟩ := onValue_eq_next.1 h
    cases h
    exact .inr ⟨moves, i, u, hmoves, hu, rfl⟩

/-! ## The canonical form -/

/-- The canonical form, part by part. -/
theorem State.wf_iff {s : State} :
    s.wf = true ↔ Memory.wf (Config.ramBanks * Config.bankSize) s.ram = true ∧ Memory.wf Config.codeSize s.code = true
      ∧ s.psw.getLsbD 5 = false ∧ s.psw.getLsbD 0 = false := by
  have open_bits : ∀ v : Byte, (v &&& ~~~Config.pswFunctional == 0#8) = true ↔
      v.getLsbD 5 = false ∧ v.getLsbD 0 = false := by decide +kernel
  simp only [State.wf, Bool.and_eq_true, open_bits, and_assoc]

/-- A write to `psw` drops bits 5 and 0 (`20_memory.md` R31), and no other data write reaches them. -/
theorem State.dataWrite_wf {s t : State} {a : DataAddr} {v : Byte} (h : s.dataWrite a v = .next t)
    (hs : s.wf = true) : t.wf = true := by
  obtain ⟨hram, hcode, h5, h0⟩ := State.wf_iff.1 hs
  have hpsw : t.psw.getLsbD 5 = false ∧ t.psw.getLsbD 0 = false := by
    rcases State.dataWrite_eq_next.1 h with ⟨cell, -, rfl⟩ | ⟨r, -, rfl⟩ | ⟨-, -, rfl⟩
    · exact ⟨h5, h0⟩
    · cases r with
      | psw => simp [State.regWrite, Config.pswFunctional]
      | acc | b | c | trl | trh | sp => exact ⟨h5, h0⟩
    · exact ⟨h5, h0⟩
  have hcode' : Memory.wf Config.codeSize t.code = true := by rwa [(State.dataWrite_surroundings h).code]
  exact State.wf_iff.2 ⟨State.dataWrite_ram_wf h hram, hcode', hpsw⟩

theorem State.pushAddr_wf {s : State} (w : CodeAddr) (hs : s.wf = true) : (s.pushAddr w).wf = true := by
  obtain ⟨hram, hrest⟩ := State.wf_iff.1 hs
  exact State.wf_iff.2 ⟨State.pushAddr_ram_wf w hram, hrest⟩

theorem Access.wf {i : Instr} {s u : State} (h : Access i s u) (hs : s.wf = true) : u.wf = true := by
  cases h with
  | none | popPc => exact hs
  | store _ _ _ hwrite => exact State.dataWrite_wf hwrite hs
  | pop _ _ _ hwrite => exact (State.dataWrite_wf hwrite hs :)
  | push v =>
    obtain ⟨hram, hrest⟩ := State.wf_iff.1 hs
    exact State.wf_iff.2 ⟨State.push_ram_wf v hram, hrest⟩
  | pushAddr w => exact State.pushAddr_wf w hs

theorem KeepsRest.wf {i : Instr} {s t : State} (h : KeepsRest i s t) (hs : s.wf = true) : t.wf = true := by
  obtain ⟨hram, hcode, h5, h0⟩ := State.wf_iff.1 hs
  have hpsw : ∀ n, n ∉ [7, 6, 2] → t.psw.getLsbD n = s.psw.getLsbD n := fun n hn =>
    h.psw n fun hmem => hn (flagBits_subset i hmem)
  rw [State.wf_iff, h.ram, h.code, hpsw 5 (by decide), hpsw 0 (by decide)]
  exact ⟨hram, hcode, h5, h0⟩

theorem exec_keeps_wf {i : Instr} {s t : State} (h : exec i s = .next t) (hs : s.wf = true) : t.wf = true := by
  obtain ⟨u, haccess, hrest⟩ := exec_effect h
  exact hrest.wf (haccess.wf hs)

/-- Settles O46: nothing is in the memories after reset, and `psw` is 0. -/
theorem resetStateIsWellFormed : Obligations.ResetStateIsWellFormed :=
  State.wf_iff.2 ⟨rfl, rfl, rfl, rfl⟩

/-- Settles O47: interrupt entry only pushes into bank 0, and `exec` keeps the canonical form. The canonical form does not
speak of the agent, of `pc`, of `int_hold` or of the draw counter. -/
theorem stepKeepsTheStateWellFormed : Obligations.StepKeepsTheStateWellFormed := by
  intro s t hs h
  rcases step_eq_next h with ⟨vector, moves, -, rfl⟩ | ⟨moves, i, u, -, hu, rfl⟩
  · exact State.pushAddr_wf (s := { s with agent := moves }) s.pc hs
  · have hu_wf : u.wf = true := exec_keeps_wf hu hs
    exact hu_wf

/-! ## `int_hold`, and what stands around the state -/

/-- Settles O43: no instruction sets `int_hold`, so a step that sets it is not one that runs an instruction. -/
theorem onlyRetiEndsTheHoldAndOnlyEntrySetsIt : Obligations.OnlyRetiEndsTheHoldAndOnlyEntrySetsIt := by
  refine ⟨fun _ _ _ => exec_intHold, ?_⟩
  intro s t h hclear hset
  rcases step_eq_next h with ⟨vector, moves, hagent, rfl⟩ | ⟨moves, i, u, -, hu, rfl⟩
  · exact ⟨vector, moves, hagent, rfl⟩
  · rw [State.tick_intHold, exec_intHold hu, hclear, Bool.false_and] at hset
    cases hset

/-- Settles O48: neither interrupt entry nor `exec` changes them, and the boundary takes moves from the front alone. -/
theorem stepKeepsCodeFlashAndLaunchParameters : Obligations.StepKeepsCodeFlashAndLaunchParameters := by
  intro s t h
  rcases step_eq_next h with ⟨vector, moves, hagent, rfl⟩ | ⟨moves, i, u, hmoves, hu, rfl⟩
  · exact ⟨rfl, rfl, rfl, rfl, hagent ▸ List.suffix_cons _ _⟩
  · obtain ⟨hcode, hflash, hagent, hbank, hpolicy, -⟩ := exec_surroundings hu
    exact ⟨hcode, hflash, hbank, hpolicy, by simpa [hagent] using hmoves⟩

end Sys2Proof.Machine
end

section
/-! SUPPORT. The access primitives of `20_memory.md` R30 to R33 as functions of the address: which cell or register a data
address, an `@Ri` operand and a stack pointer reach. -/

namespace Sys2Proof.Machine

open Sys2Proof.Claims

/-! ## The map of the data space -/

theorem cellAt_of_lt {a : DataAddr} (h : a.toNat < 256) : cellAt a = .ram (a.setWidth 8) := if_pos h

@[simp] theorem cellAt_addr (r : NamedReg) : cellAt r.addr = .reg r := by
  cases r <;> rfl

/-- The device region is what lies above the named registers (`20_memory.md` R38, R39). -/
theorem cellAt_eq_device {a : DataAddr} : cellAt a = .device ↔ 263 ≤ a.toNat := by
  rcases cellAt_cases a with ⟨ha, hcell⟩ | ⟨r, hcell, -, ha⟩ | ⟨ha, hcell⟩
  · simp [hcell]
    omega
  · simp [hcell]
    omega
  · simp [hcell, ha]

/-! ## Data reads and writes, region by region -/

section
variable {s : State} {a : DataAddr}

/-- The key of the RAM cell that a data address below 0x100 reaches now. -/
theorem ramKey_eq_currentKey (h : a.toNat < 256) : ramKey s.ramBank (a.setWidth 8) = currentKey s a.toNat := by
  simp [ramKey, currentKey, State.ramBank, Config.bankSize, Config.bitRambk0, Nat.mod_eq_of_lt h]

theorem State.dataRead_of_lt (h : a.toNat < 256) : s.dataRead a = s.ramRead s.ramBank (a.setWidth 8) := by
  rw [State.dataRead, cellAt_of_lt h]

@[simp] theorem State.dataRead_addr (r : NamedReg) : s.dataRead r.addr = .next (s.regRead r) := by
  rw [State.dataRead, cellAt_addr]

theorem State.dataRead_of_device (h : cellAt a = .device) : s.dataRead a = s.deviceRead a := by
  rw [State.dataRead, h]

theorem State.dataWrite_of_lt (v : Byte) (h : a.toNat < 256) :
    s.dataWrite a v = .next (s.ramWrite s.ramBank (a.setWidth 8) v) := by
  rw [State.dataWrite, cellAt_of_lt h]

@[simp] theorem State.dataWrite_addr (r : NamedReg) (v : Byte) : s.dataWrite r.addr v = .next (s.regWrite r v) := by
  rw [State.dataWrite, cellAt_addr]

theorem State.dataWrite_of_device (v : Byte) (h : cellAt a = .device) : s.dataWrite a v = s.deviceWrite a v := by
  rw [State.dataWrite, h]

end

/-! ## `psw` as data -/

/-- A data read of `psw` may find any value in the bits that hold nothing (`10_state.md` R24). -/
theorem sameBitsBut_pswSeen (s : State) : sameBitsBut [5, 0] s.psw s.pswSeen :=
  sameBitsBut_trans (sameBitsBut_withBit (by decide) (by decide) _ _) (sameBitsBut_withBit (by decide) (by decide) _ _)

/-- A data write to `psw` stores every bit but those that hold nothing (`20_memory.md` R31). -/
theorem getLsbD_and_pswFunctional (v : Byte) (n : Nat) :
    (v &&& Config.pswFunctional).getLsbD n = (v.getLsbD n && decide (n ∉ [5, 0])) := by
  rw [BitVec.getLsbD_and]
  by_cases hn : n < 8
  · have hmask : ∀ m < 8, Config.pswFunctional.getLsbD m = decide (m ∉ [5, 0]) := by decide
    rw [hmask n hn]
  · rw [BitVec.getLsbD_of_ge v n (by omega), Bool.false_and, Bool.false_and]

/-- Settles O6: each region of the map in turn. -/
theorem dataReadFollowsTheMapOfTheDataSpace : Obligations.DataReadFollowsTheMapOfTheDataSpace := by
  intro s a
  refine ⟨fun ha => ?_, State.dataRead_addr .acc, ⟨_, State.dataRead_addr .psw, sameBitsBut_pswSeen s⟩,
    State.dataRead_addr .b, State.dataRead_addr .c, State.dataRead_addr .trl, State.dataRead_addr .trh,
    State.dataRead_addr .sp, fun ha => ?_⟩
  · rw [State.dataRead_of_lt ha, ← ramKey_eq_currentKey ha]
    refine ⟨fun v => State.ramRead_eq_next.2, fun h => ?_⟩
    rw [State.ramRead_eq_fault.2 ⟨h, rfl⟩, BitVec.ofNat_toNat]
    rfl
  · rw [State.dataRead_of_device (cellAt_eq_device.2 ha), State.deviceRead]
    exact ⟨fun h => by rw [h], fun h => by simp [h]⟩

/-- Settles O7: each region of the map in turn. -/
theorem dataWriteStoresToTheOneCellItAddresses : Obligations.DataWriteStoresToTheOneCellItAddresses := by
  intro s a v
  refine ⟨fun ha => ?_, State.dataWrite_addr .acc v, ⟨_, State.dataWrite_addr .psw v, fun n hn => ?_, ?_, ?_⟩,
    State.dataWrite_addr .b v, State.dataWrite_addr .c v, State.dataWrite_addr .trl v, State.dataWrite_addr .trh v,
    State.dataWrite_addr .sp v, fun ha => ?_⟩
  · refine ⟨_, State.dataWrite_of_lt v ha, rfl, fun key => ?_⟩
    rw [State.ramWrite_ram, Memory.read_write, ramKey_eq_currentKey ha]
  · rw [getLsbD_and_pswFunctional, decide_eq_true hn, Bool.and_true]
  · rw [getLsbD_and_pswFunctional, decide_eq_false (by decide), Bool.and_false]
  · rw [getLsbD_and_pswFunctional, decide_eq_false (by decide), Bool.and_false]
  · rw [State.dataWrite_of_device v (cellAt_eq_device.2 ha), State.deviceWrite]
    exact ⟨fun h => by rw [h], fun h => by rw [h]⟩

/-! ## `@Ri` -/

/-- The pointer cell of `@Ri` as a number (`20_memory.md` R32). -/
theorem State.pointerCell_toNat (s : State) (i : IndReg) :
    (s.pointerCell i).toNat = 4 * (s.psw.toNat / 8 % 4) + i.toNat := by
  have hi := i.isLt
  rw [State.pointerCell, Config.bitIrbk0, BitVec.toNat_setWidth, BitVec.toNat_append,
    ← Nat.shiftLeft_add_eq_or_of_lt hi, Nat.shiftLeft_eq, BitVec.extractLsb'_toNat, Nat.shiftRight_eq_div_pow]
  omega

/-- The launch parameter `RI_PTR_BANK` names the bank of the pointer cell. -/
theorem State.pointerBank_eq (s : State) :
    s.pointerBank = if s.riPtrBank = .current then (s.psw.getLsbD 1).toNat else 0 := by
  unfold State.pointerBank
  cases s.riPtrBank <;> rfl

/-- Bit 1 of the register number is bit 8 of the address `@Ri` denotes. -/
theorem indTarget_toNat (i : IndReg) (pointer : Byte) :
    (i.extractLsb' 1 1 ++ pointer : DataAddr).toNat = 256 * (i.toNat / 2) + pointer.toNat := by
  have hi := i.isLt
  rw [BitVec.toNat_append, ← Nat.shiftLeft_add_eq_or_of_lt pointer.isLt, Nat.shiftLeft_eq, BitVec.extractLsb'_toNat,
    Nat.shiftRight_eq_div_pow]
  omega

/-- Settles O8: `@Ri` is its pointer cell's value under bit 1 of its number. -/
theorem indirectAddressComesFromThePointerCell : Obligations.IndirectAddressComesFromThePointerCell := by
  intro s i
  simp only [← State.pointerCell_toNat, ← State.pointerBank_eq, BitVec.ofNat_toNat, BitVec.setWidth_eq]
  refine ⟨fun pointer hread => ?_, fun hread => ?_⟩
  · exact ⟨_, State.indAddr_eq_next.2 ⟨pointer, hread, rfl⟩, indTarget_toNat i pointer⟩
  · rw [State.indAddr, State.ramRead_eq_fault.2 ⟨hread, rfl⟩, onValue_fault]

/-! ## The stack -/

/-- The stack's bank holds cell `p` under the key `p` (`20_memory.md` R33, decision D7). -/
theorem ramKey_stackBank (p : Byte) : ramKey Config.stackBank p = p.toNat := by
  simp [ramKey, Config.stackBank]

/-- Settles O9: the stack's bank is bank 0. -/
theorem stackAccessesReachRamBankZero : Obligations.StackAccessesReachRamBankZero := by
  intro s p
  rw [← ramKey_stackBank p]
  refine ⟨fun v => State.stackRead_eq_next.2, fun h => State.ramRead_eq_fault.2 ⟨h, rfl⟩, fun v => ⟨rfl, fun key => ?_⟩⟩
  rw [State.stackWrite_ram, Memory.read_write]

end Sys2Proof.Machine
end

section
/-! SUPPORT. Code reads and fetches of cells that the image does not cover (`20_memory.md` R34, `30_encoding.md` R51). -/

namespace Sys2Proof.Machine

theorem instrLength_le (b0 : Byte) : instrLength b0 ≤ 3 := by
  simp only [instrLength]
  split_ifs <;> decide

/-- A byte that the instruction has is read from the code space. -/
theorem operandByte_of_lt {s : State} {b0 : Byte} {k : Nat} (h : k < instrLength b0) :
    s.operandByte b0 k = s.codeRead (s.pc + BitVec.ofNat 16 k) := if_pos h

/-- A fetch is refused at the first byte of the instruction that the image does not cover. -/
theorem fetch_refused {s : State} {k : Nat}
    (hbefore : ∀ j, j < k → ∃ v, Memory.read s.code (s.pc + BitVec.ofNat 16 j).toNat = some v)
    (hlen : ∀ b0, Memory.read s.code s.pc.toNat = some b0 → k < instrLength b0)
    (hmissing : Memory.read s.code (s.pc + BitVec.ofNat 16 k).toNat = none) :
    s.fetch = .refused (.codeNotCovered (s.pc + BitVec.ofNat 16 k)) := by
  have hstop := State.codeRead_eq_refused.2 ⟨hmissing, rfl⟩
  cases k with
  | zero =>
    rw [BitVec.add_zero] at hstop ⊢
    rw [State.fetch, hstop, onValue_refused]
  | succ n =>
    obtain ⟨b0, hb0⟩ := hbefore 0 n.succ_pos
    rw [BitVec.add_zero] at hb0
    have hn := hlen b0 hb0
    have hmax := instrLength_le b0
    rw [State.fetch, State.codeRead_eq_next.2 hb0, onValue_next]
    match n with
    | 0 => rw [operandByte_of_lt hn, hstop, onValue_refused]
    | 1 =>
      obtain ⟨b1, hb1⟩ := hbefore 1 (by decide)
      rw [operandByte_of_lt (k := 1) (by omega), State.codeRead_eq_next.2 hb1, onValue_next, operandByte_of_lt hn, hstop,
        onValue_refused]
    | m + 2 => omega

/-- Settles O10: the step of a boundary that runs begins with the fetch. -/
theorem codeReadRefusesWhatTheImageDoesNotCover : Obligations.CodeReadRefusesWhatTheImageDoesNotCover := by
  refine ⟨fun s a => ⟨fun v => State.codeRead_eq_next.2, fun h => State.codeRead_eq_refused.2 ⟨h, rfl⟩⟩, ?_⟩
  intro s t k hb hbefore hlen hmissing
  rw [step_of_boundary_run hb, fetch_refused hbefore hlen hmissing, onValue_refused]

end Sys2Proof.Machine
end

section
/-! SUPPORT. The frame of RAM over all instructions: the cells an instruction stores to are the cell of its data write, in the
bank selected before, and the cells of bank 0 that it pushes to (`20_memory.md` R30, R31, R33, R37). -/

namespace Sys2Proof.Machine

/-- The keys of the stored cells: that of the RAM cell at the address written as data, and those of the bytes pushed. -/
theorem mem_storedKeys {i : Instr} {s : State} {key : Nat} :
    key ∈ i.storedKeys s ↔
      (∃ a cell, i.storeAddr s = some a ∧ cellAt a = .ram cell ∧ key = ramKey s.ramBank cell)
        ∨ ∃ k < i.pushes, key = ramKey Config.stackBank (s.sp + BitVec.ofNat 8 (k + 1)) := by
  unfold Instr.storedKeys
  rw [List.mem_append]
  refine or_congr ?_ (by simp [eq_comm])
  cases i.storeAddr s with
  | none => simp
  | some a => cases hcell : cellAt a <;> simp [hcell]

/-- A data write changes at most the RAM cell that its address names. -/
theorem State.dataWrite_read_ram {s t : State} {a : DataAddr} {v : Byte} {key : Nat} (h : s.dataWrite a v = .next t)
    (hkey : ∀ cell, cellAt a = .ram cell → key ≠ ramKey s.ramBank cell) :
    Memory.read t.ram key = Memory.read s.ram key := by
  rcases State.dataWrite_eq_next.1 h with ⟨cell, hcell, rfl⟩ | ⟨r, -, rfl⟩ | ⟨-, -, rfl⟩
  · exact Memory.read_write_other _ _ (hkey cell hcell)
  · cases r <;> rfl
  · rfl

/-- A push changes one cell of the stack's bank. -/
theorem State.push_read_ram {s : State} (v : Byte) {key : Nat} (h : key ≠ ramKey Config.stackBank (s.sp + 1#8)) :
    Memory.read (s.push v).ram key = Memory.read s.ram key := Memory.read_write_other _ _ h

/-- Pushing a code address changes two cells of the stack's bank. -/
theorem State.pushAddr_read_ram {s : State} (w : CodeAddr) {key : Nat}
    (hlow : key ≠ ramKey Config.stackBank (s.sp + 1#8)) (hhigh : key ≠ ramKey Config.stackBank (s.sp + 1#8 + 1#8)) :
    Memory.read (s.pushAddr w).ram key = Memory.read s.ram key :=
  (State.push_read_ram (s := s.push (lowByte w)) _ hhigh).trans (State.push_read_ram _ hlow)

theorem Access.read_ram {i : Instr} {s u : State} {key : Nat} (h : Access i s u) (hkey : key ∉ i.storedKeys s) :
    Memory.read u.ram key = Memory.read s.ram key := by
  obtain ⟨hdata, hpushed⟩ := not_or.1 (mt mem_storedKeys.2 hkey)
  cases h with
  | none | popPc => rfl
  | store _ _ haddr hwrite =>
    exact State.dataWrite_read_ram hwrite fun cell hcell hk => hdata ⟨_, cell, haddr, hcell, hk⟩
  | pop _ _ haddr hwrite =>
    exact (State.dataWrite_read_ram hwrite fun cell hcell hk => hdata ⟨_, cell, haddr, hcell, hk⟩ :)
  | push v hpush => exact State.push_read_ram v fun hk => hpushed ⟨0, by omega, hk⟩
  | pushAddr w hpush =>
    refine State.pushAddr_read_ram w (fun hk => hpushed ⟨0, by omega, hk⟩) fun hk => hpushed ⟨1, by omega, ?_⟩
    rwa [BitVec.add_assoc] at hk

/-- Settles O49: what follows the memory access leaves RAM alone. -/
theorem ramOutsideTheStoredCellsIsUnchanged : Obligations.RamOutsideTheStoredCellsIsUnchanged := by
  intro i s t h key hkey
  obtain ⟨u, haccess, hrest⟩ := exec_effect h
  rw [hrest.ram, haccess.read_ram hkey]

/-! ## Bank one while `psw[1]` is clear -/

/-- With `psw[1]` clear bank 0 is selected (`20_memory.md` R30). -/
theorem State.ramBank_of_clear {s : State} (h : s.psw.getLsbD 1 = false) : s.ramBank = 0 := by
  rw [State.ramBank, Config.bitRambk0, h, Bool.toNat_false]

/-- No cell of bank 0 has the key of a cell of bank 1. -/
theorem bankOneKey_ne_ramKey_zero (cell other : Byte) : 256 + cell.toNat ≠ ramKey 0 other := by
  have := other.isLt
  simp only [ramKey]
  omega

/-- While bank 0 is selected no instruction stores to bank 1. -/
theorem bankOneKey_notMem_storedKeys {s : State} (h : s.psw.getLsbD 1 = false) (i : Instr) (cell : Byte) :
    256 + cell.toNat ∉ i.storedKeys s := by
  rw [mem_storedKeys, State.ramBank_of_clear h]
  rintro (⟨_, other, -, -, hkey⟩ | ⟨_, -, hkey⟩)
  · exact bankOneKey_ne_ramKey_zero cell other hkey
  · exact bankOneKey_ne_ramKey_zero cell _ hkey

/-- Settles O56: interrupt entry pushes into bank 0, and an instruction stores into the selected bank and the stack's. -/
theorem stepLeavesBankOneAloneWhileDeselected : Obligations.StepLeavesBankOneAloneWhileDeselected := by
  intro s t h hclear cell
  rcases step_eq_next h with ⟨vector, moves, -, rfl⟩ | ⟨moves, i, u, -, hu, rfl⟩
  · exact State.pushAddr_read_ram (s := { s with agent := moves }) s.pc (bankOneKey_ne_ramKey_zero cell _)
      (bankOneKey_ne_ramKey_zero cell _)
  · exact ramOutsideTheStoredCellsIsUnchanged i _ u hu _
      (bankOneKey_notMem_storedKeys (s := { s with agent := moves }) hclear i cell)

end Sys2Proof.Machine
end

section
/-! SUPPORT. Why an instruction stops, said once for all 70 forms: `exec` stops as the reads, the writes and the checks of its
own operands do (`mayStop`), and nothing after them stops (`20_memory.md` R34, R38, `43_data_transfer.md` R104 to R108). -/

namespace Sys2Proof.Machine

open Sys2Proof.Claims

/-! ## Results up to the value they answer -/

theorem onValue_assoc {α β γ : Type} (r : Result α) (k : α → Result β) (g : β → Result γ) :
    onValue (onValue r k) g = onValue r fun v => onValue (k v) g := by
  cases r <;> rfl

/-- Whether and why a result is a stop, without the value it answers. -/
def stopOf {α : Type} (r : Result α) : Result Unit := onValue r fun _ => .next ()

section
variable {α β : Type}

theorem stopOf_eq_fault {r : Result α} {f : Fault} : stopOf r = .fault f ↔ r = .fault f := by
  simp [stopOf, onValue_eq_fault]

theorem stopOf_eq_refused {r : Result α} {f : Refusal} : stopOf r = .refused f ↔ r = .refused f := by
  simp [stopOf, onValue_eq_refused]

theorem stopOf_onValue (r : Result α) (k : α → Result β) : stopOf (onValue r k) = onValue r fun v => stopOf (k v) :=
  onValue_assoc r k _

/-- What goes on for every value stops as its first part does. -/
theorem stopOf_then_next (r : Result α) (f : α → β) : stopOf (onValue r fun v => .next (f v)) = stopOf r :=
  stopOf_onValue r _

end

/-! ## What can stop an instruction -/

/-- The read of the operand that an instruction names, if it names one. -/
def operandStop (i : Instr) (s : State) : Result Unit :=
  match i.directAddr with
  | some d => stopOf (s.dataRead d)
  | none =>
    match i.indReg with
    | some k => stopOf (s.indValue k)
    | none => .next ()

/-- What an instruction does that can stop it. `st` and `mov` only write their operand, `pop` reads the stack before it writes
(`43_data_transfer.md` R101, R102, R105); every other instruction reads the operand it names. -/
def mayStop (i : Instr) (s : State) : Result Unit :=
  match i with
  | .ldf => .refused .flashLoad
  | .stf => .refused .flashStore
  | .ldc => stopOf (s.codeRead s.tableAddr)
  | .ret | .reti => stopOf s.popPc
  | .push d => if d = Config.addrSp then .refused .stackPointerOperand else stopOf (s.dataRead d)
  | .pop d =>
    if d = Config.addrSp then .refused .stackPointerOperand
    else onValue (s.stackRead s.sp) fun v => stopOf (s.dataWrite d v)
  | .stDir d => stopOf (s.dataWrite d s.acc)
  | .movDir v d => stopOf (s.dataWrite d v)
  | .stInd k => onValue (s.indAddr k) fun ea => stopOf (s.dataWrite ea s.acc)
  | .movInd v k => onValue (s.indAddr k) fun ea => stopOf (s.dataWrite ea v)
  | i => operandStop i s

section
variable {s : State}

/-- A cell that answers a read takes a write, so reading it and writing it back stops as the read does. -/
theorem stopOf_read_write {a : DataAddr} (f : Byte → Byte) (g : Byte → State → State) :
    stopOf (onValue (s.dataRead a) fun v => onValue (s.dataWrite a (f v)) fun t => .next (g v t))
      = stopOf (s.dataRead a) := by
  cases hread : s.dataRead a with
  | next v =>
    obtain ⟨t, hwrite⟩ := State.dataWrite_of_dataRead (f v) hread
    rw [onValue_next, hwrite]
    rfl
  | fault | refused => rfl

/-- An `@Ri` form that stops as the read of the cell it denotes stops as the whole read of its operand. -/
theorem stopOf_indirect {k : IndReg} {f : DataAddr → Result State} (h : ∀ ea, stopOf (f ea) = stopOf (s.dataRead ea)) :
    stopOf (onValue (s.indAddr k) f) = stopOf (s.indValue k) := by
  rw [State.indValue, stopOf_onValue, stopOf_onValue, funext h]

theorem stopOf_indirect_store {k : IndReg} {v : Byte} {len : Nat} :
    stopOf (onValue (s.indAddr k) fun ea => s.storeStep ea v len)
      = onValue (s.indAddr k) fun ea => stopOf (s.dataWrite ea v) := by
  rw [stopOf_onValue]
  exact congrArg _ (funext fun _ => stopOf_then_next _ _)

theorem stopOf_execBpc (d : DataAddr) (n : BitNum) (r : Byte) : stopOf (execBpc d n r s) = stopOf (s.dataRead d) := by
  unfold execBpc
  cases hread : s.dataRead d with
  | next v =>
    obtain ⟨t, hwrite⟩ := State.dataWrite_of_dataRead (clearBit n v) hread
    rw [onValue_next, hwrite]
    split <;> rfl
  | fault | refused => rfl

theorem stopOf_execPush (d : DataAddr) : stopOf (execPush d s) = mayStop (.push d) s := by
  simp only [execPush, mayStop]
  split
  · rfl
  · exact stopOf_then_next _ _

theorem stopOf_execPop (d : DataAddr) : stopOf (execPop d s) = mayStop (.pop d) s := by
  simp only [execPop, mayStop]
  split
  · rfl
  · rw [stopOf_onValue]
    exact congrArg _ (funext fun _ => stopOf_then_next _ _)

/-- Each of the 70 forms stops as its own operands do. -/
theorem stopOf_exec (i : Instr) (s : State) : stopOf (exec i s) = mayStop i s := by
  cases i with
  | addImm _ | addcImm _ | subImm _ | subcImm _ | andImm _ | orImm _ | xorImm _ | mul | div | rol | rolc | ror | rorc
  | jmp _ | jmpf _ | br _ | brf _ | bz _ | bnz _ | beImm _ _ | bneImm _ _ | call _ | callf _ | callr _ | nop | ldf | stf
  | ret => rfl
  | reti => exact stopOf_then_next _ _
  | addDir _ | addcDir _ | subDir _ | subcDir _ | andDir _ | orDir _ | xorDir _ | ldDir _ | bp _ _ _ | bn _ _ _
  | beDir _ _ | bneDir _ _ => exact stopOf_then_next _ _
  | addInd _ | addcInd _ | subInd _ | subcInd _ | andInd _ | orInd _ | xorInd _ | ldInd _ | beInd _ _ _ | bneInd _ _ _ =>
    exact stopOf_then_next _ _
  | ldc | stDir _ | movDir _ _ => exact stopOf_then_next _ _
  | incDir _ | decDir _ | clr1 _ _ | set1 _ _ | not1 _ _ | dbnzDir _ _ => exact stopOf_read_write _ _
  | xchDir _ => exact stopOf_read_write (fun _ => s.acc) _
  | incInd _ | decInd _ | dbnzInd _ _ => exact stopOf_indirect fun _ => stopOf_read_write _ _
  | xchInd _ => exact stopOf_indirect fun _ => stopOf_read_write (fun _ => s.acc) _
  | stInd _ | movInd _ _ => exact stopOf_indirect_store
  | bpc d n r => exact stopOf_execBpc d n r
  | push d => exact stopOf_execPush d
  | pop d => exact stopOf_execPop d

theorem exec_eq_fault {i : Instr} {f : Fault} : exec i s = .fault f ↔ mayStop i s = .fault f := by
  rw [← stopOf_exec, stopOf_eq_fault]

theorem exec_eq_refused {i : Instr} {r : Refusal} : exec i s = .refused r ↔ mayStop i s = .refused r := by
  rw [← stopOf_exec, stopOf_eq_refused]

/-! ## Refusals -/

/-- An access that the device policy refuses: the address lies in the device region (`20_memory.md` R38). -/
def DeviceRefused (s : State) (a : DataAddr) (r : Refusal) : Prop :=
  cellAt a = .device ∧ s.devicePolicy = .refuse ∧ r = .deviceRegion a

/-- Where an instruction that only accesses the operand it names is refused, that operand lies in the device region. -/
theorem operandStop_eq_refused {i : Instr} {r : Refusal} (h : operandStop i s = .refused r) :
    ∃ a, operandAddr i s a ∧ DeviceRefused s a r := by
  unfold operandStop at h
  split at h
  · next d hd => exact ⟨d, .inl hd, State.dataRead_eq_refused.1 (stopOf_eq_refused.1 h)⟩
  · split at h
    · next k hk =>
      rcases onValue_eq_refused.1 (stopOf_eq_refused.1 h) with h | ⟨ea, hea, h⟩
      · exact absurd h State.indAddr_ne_refused
      · exact ⟨ea, .inr ⟨k, hk, hea⟩, State.dataRead_eq_refused.1 h⟩
    · cases h

theorem store_eq_refused {a : DataAddr} {v : Byte} {r : Refusal} (h : stopOf (s.dataWrite a v) = .refused r) :
    DeviceRefused s a r := State.dataWrite_eq_refused.1 (stopOf_eq_refused.1 h)

theorem indirect_store_eq_refused {k : IndReg} {v : Byte} {r : Refusal}
    (h : (onValue (s.indAddr k) fun ea => stopOf (s.dataWrite ea v)) = .refused r) :
    ∃ ea, s.indAddr k = .next ea ∧ DeviceRefused s ea r := by
  rcases onValue_eq_refused.1 h with h | ⟨ea, hea, h⟩
  · exact absurd h State.indAddr_ne_refused
  · exact ⟨ea, hea, store_eq_refused h⟩

theorem popPc_ne_refused {r : Refusal} : stopOf s.popPc ≠ .refused r := by
  simp [stopOf_eq_refused, State.popPc, State.pop, State.stackRead, onValue_eq_refused]

/-- Every reason for which an instruction is refused (`20_memory.md` R34, R38, `43_data_transfer.md` R104, R105, R107, R108). -/
theorem exec_refused_reason {i : Instr} {r : Refusal} (h : exec i s = .refused r) :
    (∃ a, operandAddr i s a ∧ DeviceRefused s a r) ∨ (r = .flashLoad ∧ i = .ldf) ∨ (r = .flashStore ∧ i = .stf)
      ∨ (r = .stackPointerOperand ∧ (i = .push Config.addrSp ∨ i = .pop Config.addrSp))
      ∨ (i = .ldc ∧ s.codeRead s.tableAddr = .refused r) := by
  replace h := exec_eq_refused.1 h
  cases i with
  | ldf =>
    cases h
    exact .inr (.inl ⟨rfl, rfl⟩)
  | stf =>
    cases h
    exact .inr (.inr (.inl ⟨rfl, rfl⟩))
  | ldc => exact .inr (.inr (.inr (.inr ⟨rfl, stopOf_eq_refused.1 h⟩)))
  | ret | reti => exact absurd h popPc_ne_refused
  | push d =>
    simp only [mayStop] at h
    split at h
    · next hd =>
      cases h
      exact .inr (.inr (.inr (.inl ⟨rfl, .inl (hd ▸ rfl)⟩)))
    · exact .inl ⟨d, .inl rfl, State.dataRead_eq_refused.1 (stopOf_eq_refused.1 h)⟩
  | pop d =>
    simp only [mayStop] at h
    split at h
    · next hd =>
      cases h
      exact .inr (.inr (.inr (.inl ⟨rfl, .inr (hd ▸ rfl)⟩)))
    · rcases onValue_eq_refused.1 h with h | ⟨v, -, h⟩
      · exact absurd h State.ramRead_ne_refused
      · exact .inl ⟨d, .inl rfl, store_eq_refused h⟩
  | stDir d | movDir _ d => exact .inl ⟨d, .inl rfl, store_eq_refused h⟩
  | stInd k | movInd _ k =>
    obtain ⟨ea, hea, hrefused⟩ := indirect_store_eq_refused h
    exact .inl ⟨ea, .inr ⟨k, rfl, hea⟩, hrefused⟩
  | _ => exact .inl (operandStop_eq_refused h)

/-! ## Well-formed instructions -/

theorem describedAddr_iff {d : DataAddr} : describedAddr d = true ↔ cellAt d ≠ .device := by
  rw [Ne, cellAt_eq_device, describedAddr, decide_eq_true_iff, BitVec.le_def, Config.addrSp, BitVec.toNat_ofNat]
  omega

/-- Well-formedness, check by check. -/
theorem wellFormed_iff {i : Instr} :
    i.wellFormed = true ↔ (∀ d, i.directAddr = some d → cellAt d ≠ .device) ∧ i ≠ .ldf ∧ i ≠ .stf
      ∧ i ≠ .push Config.addrSp ∧ i ≠ .pop Config.addrSp := by
  simp [Instr.wellFormed, Instr.directOk, Instr.flashOk, Instr.stackOk, Option.all_eq_true, describedAddr_iff, and_assoc]

/-- `@R0` and `@R1` reach RAM alone (`20_memory.md` R32). -/
theorem cellAt_indAddr_ne_device {k : IndReg} {ea : DataAddr} (hk : k.toNat < 2) (h : s.indAddr k = .next ea) :
    cellAt ea ≠ .device := by
  obtain ⟨pointer, -, rfl⟩ := State.indAddr_eq_next.1 h
  have := pointer.isLt
  rw [Ne, cellAt_eq_device, indTarget_toNat]
  omega

/-! ## Operands in the device region -/

theorem dataRead_device {a : DataAddr} (ha : cellAt a = .device) (hp : s.devicePolicy = .refuse) :
    s.dataRead a = .refused (.deviceRegion a) := State.dataRead_eq_refused.2 ⟨ha, hp, rfl⟩

theorem dataWrite_device {a : DataAddr} (v : Byte) (ha : cellAt a = .device) (hp : s.devicePolicy = .refuse) :
    s.dataWrite a v = .refused (.deviceRegion a) := State.dataWrite_eq_refused.2 ⟨ha, hp, rfl⟩

/-- The device region does not hold `sp`. -/
theorem ne_addrSp_of_device {a : DataAddr} (ha : cellAt a = .device) : a ≠ Config.addrSp := by
  rintro rfl
  cases ha

theorem operandStop_of_direct {i : Instr} {d : DataAddr} (hi : i.directAddr = some d) :
    operandStop i s = stopOf (s.dataRead d) := by
  rw [operandStop, hi]

theorem mayStop_of_direct_device {i : Instr} {d : DataAddr} (hi : i.directAddr = some d) (hd : cellAt d = .device)
    (hp : s.devicePolicy = .refuse) (hpop : i = .pop d → ∃ v, s.stackRead s.sp = .next v) :
    mayStop i s = .refused (.deviceRegion d) := by
  have hread : stopOf (s.dataRead d) = .refused (.deviceRegion d) := stopOf_eq_refused.2 (dataRead_device hd hp)
  have hwrite (v : Byte) : stopOf (s.dataWrite d v) = .refused (.deviceRegion d) :=
    stopOf_eq_refused.2 (dataWrite_device v hd hp)
  cases i with
  | push =>
    cases hi
    exact (if_neg (ne_addrSp_of_device hd)).trans hread
  | pop =>
    cases hi
    obtain ⟨v, hv⟩ := hpop rfl
    exact (if_neg (ne_addrSp_of_device hd)).trans (by rw [hv, onValue_next, hwrite])
  | stDir | movDir =>
    cases hi
    exact hwrite _
  | ldf | stf | ldc | ret | reti | stInd | movInd => cases hi
  | _ => exact (operandStop_of_direct hi).trans hread

/-- No instruction has both a direct and an `@Ri` operand. -/
theorem directAddr_of_indReg {i : Instr} {k : IndReg} (h : i.indReg = some k) : i.directAddr = none := by
  cases i with
  | addInd | addcInd | subInd | subcInd | incInd | decInd | andInd | orInd | xorInd | ldInd | stInd | movInd | xchInd
  | dbnzInd | beInd | bneInd => rfl
  | _ => cases h

theorem operandStop_of_indirect {i : Instr} {k : IndReg} (hi : i.indReg = some k) :
    operandStop i s = stopOf (s.indValue k) := by
  rw [operandStop, directAddr_of_indReg hi, hi]

theorem mayStop_of_indirect_device {i : Instr} {k : IndReg} {ea : DataAddr} (hi : i.indReg = some k)
    (hk : s.indAddr k = .next ea) (hea : cellAt ea = .device) (hp : s.devicePolicy = .refuse) :
    mayStop i s = .refused (.deviceRegion ea) := by
  have hread : stopOf (s.indValue k) = .refused (.deviceRegion ea) := by
    rw [stopOf_eq_refused, State.indValue, hk, onValue_next, dataRead_device hea hp]
  have hwrite (v : Byte) : (onValue (s.indAddr k) fun a => stopOf (s.dataWrite a v)) = .refused (.deviceRegion ea) := by
    rw [hk, onValue_next, stopOf_eq_refused, dataWrite_device v hea hp]
  cases i with
  | stInd | movInd =>
    cases hi
    exact hwrite _
  | ldf | stf | ldc | ret | reti | push | pop | stDir | movDir => cases hi
  | _ => exact (operandStop_of_indirect hi).trans hread

end

/-- Settles O53: well-formedness and the bound on the pointer register exclude each reason for a refusal but that of `ldc`. -/
theorem wellFormedInstructionsAreNotRefused : Obligations.WellFormedInstructionsAreNotRefused := by
  intro i s r hwf hldc hreg h
  obtain ⟨hdirect, hldf, hstf, hpush, hpop⟩ := wellFormed_iff.1 hwf
  rcases exec_refused_reason h with ⟨a, hop | ⟨k, hk, hea⟩, hdevice, -⟩ | ⟨-, hi⟩ | ⟨-, hi⟩ | ⟨-, hi | hi⟩ | ⟨hi, -⟩
  · exact hdirect a hop hdevice
  · exact cellAt_indAddr_ne_device (hreg k hk) hea hdevice
  · exact hldf hi
  · exact hstf hi
  · exact hpush hi
  · exact hpop hi
  · exact hldc hi

/-- Settles O54: the first access to the operand is refused. -/
theorem deviceOperandsAreRefused : Obligations.DeviceOperandsAreRefused :=
  ⟨fun _ _ _ hi hd hp hpop => exec_eq_refused.2 (mayStop_of_direct_device hi (cellAt_eq_device.2 hd) hp hpop),
    fun _ _ _ _ hi hk hea hp => exec_eq_refused.2 (mayStop_of_indirect_device hi hk (cellAt_eq_device.2 hea) hp)⟩

end Sys2Proof.Machine
end

section
/-! SUPPORT. `RI_PTR_BANK` while bank 0 is selected: both its values name the same pointer cell, no other access looks at it, and
nothing writes it, so running an instruction and changing the parameter commute (`20_memory.md` R32, decision D6). -/

namespace Sys2Proof.Machine

/-- The state with another launch parameter `RI_PTR_BANK`. -/
def State.setPtrBank (s : State) (bank : Config.PtrBank) : State := { s with riPtrBank := bank }

/-- A result with the parameter changed in the state that it answers. -/
def setPtrBankOf (bank : Config.PtrBank) (r : Result State) : Result State := onValue r fun t => .next (t.setPtrBank bank)

section
variable {α : Type} {bank : Config.PtrBank} {s : State}

theorem setPtrBankOf_onValue (r : Result α) (k : α → Result State) :
    setPtrBankOf bank (onValue r k) = onValue r fun v => setPtrBankOf bank (k v) := onValue_assoc r k _

/-! ## The accesses -/

theorem dataRead_setPtrBank (a : DataAddr) : (s.setPtrBank bank).dataRead a = s.dataRead a := rfl

theorem dataWrite_setPtrBank (a : DataAddr) (v : Byte) :
    (s.setPtrBank bank).dataWrite a v = setPtrBankOf bank (s.dataWrite a v) := by
  unfold State.dataWrite
  cases cellAt a with
  | ram cell => rfl
  | reg r => cases r <;> rfl
  | device =>
    simp only [State.deviceWrite, State.setPtrBank]
    cases s.devicePolicy <;> rfl

/-- With bank 0 selected the pointer cell lies in bank 0 in either case. -/
theorem pointerBank_of_clear (h : s.psw.getLsbD 1 = false) : s.pointerBank = 0 := by
  rw [State.pointerBank_eq, h, Bool.toNat_false, ite_self]

theorem indAddr_setPtrBank (h : s.psw.getLsbD 1 = false) (i : IndReg) :
    (s.setPtrBank bank).indAddr i = s.indAddr i := by
  have hbank : (s.setPtrBank bank).pointerBank = s.pointerBank :=
    (pointerBank_of_clear (s := s.setPtrBank bank) h).trans (pointerBank_of_clear h).symm
  unfold State.indAddr
  rw [hbank]
  rfl

/-! ## The shapes of an instruction -/

/-- A write and then registers. -/
theorem write_setPtrBank (a : DataAddr) (v : Byte) {f : State → State}
    (hf : ∀ t, (f t).setPtrBank bank = f (t.setPtrBank bank)) :
    setPtrBankOf bank (onValue (s.dataWrite a v) fun t => .next (f t))
      = onValue ((s.setPtrBank bank).dataWrite a v) fun t => .next (f t) := by
  rw [dataWrite_setPtrBank, setPtrBankOf_onValue, setPtrBankOf, onValue_assoc]
  exact congrArg _ (funext fun t => congrArg Host.Outcome.next (hf t))

/-- A read of the operand, a write back and then registers. -/
theorem readWrite_setPtrBank (a : DataAddr) (f : Byte → Byte) {g : Byte → State → State}
    (hg : ∀ v t, (g v t).setPtrBank bank = g v (t.setPtrBank bank)) :
    setPtrBankOf bank (onValue (s.dataRead a) fun v => onValue (s.dataWrite a (f v)) fun t => .next (g v t))
      = onValue ((s.setPtrBank bank).dataRead a) fun v =>
          onValue ((s.setPtrBank bank).dataWrite a (f v)) fun t => .next (g v t) := by
  rw [setPtrBankOf_onValue, dataRead_setPtrBank]
  exact congrArg _ (funext fun v => write_setPtrBank a (f v) (hg v))

/-- An `@Ri` form that commutes once its operand is resolved. -/
theorem indirect_setPtrBank (h : s.psw.getLsbD 1 = false) (i : IndReg) {k k' : DataAddr → Result State}
    (hk : ∀ ea, setPtrBankOf bank (k ea) = k' ea) :
    setPtrBankOf bank (onValue (s.indAddr i) k) = onValue ((s.setPtrBank bank).indAddr i) k' := by
  rw [setPtrBankOf_onValue, indAddr_setPtrBank h, funext hk]

/-- An `@Ri` form that reads its operand and then writes registers alone. -/
theorem indRead_setPtrBank (h : s.psw.getLsbD 1 = false) (i : IndReg) {f f' : Byte → State}
    (hf : ∀ m, (f m).setPtrBank bank = f' m) :
    setPtrBankOf bank (onValue (s.indValue i) fun m => .next (f m))
      = onValue ((s.setPtrBank bank).indValue i) fun m => .next (f' m) := by
  have hvalue : (s.setPtrBank bank).indValue i = s.indValue i := by
    rw [State.indValue, indAddr_setPtrBank h]
    rfl
  rw [setPtrBankOf_onValue, hvalue]
  exact congrArg _ (funext fun m => congrArg Host.Outcome.next (hf m))

theorem popPc_setPtrBank : setPtrBankOf bank s.popPc = (s.setPtrBank bank).popPc := by
  simp only [State.popPc, State.pop, setPtrBankOf, onValue_assoc]
  rfl

theorem returnFromInterrupt_setPtrBank :
    setPtrBankOf bank s.returnFromInterrupt = (s.setPtrBank bank).returnFromInterrupt := by
  rw [State.returnFromInterrupt, State.returnFromInterrupt, ← popPc_setPtrBank, setPtrBankOf_onValue, setPtrBankOf,
    onValue_assoc]
  rfl

/-- With bank 0 selected each of the 70 forms commutes with a change of the parameter. -/
theorem exec_setPtrBank (i : Instr) (h : s.psw.getLsbD 1 = false) :
    setPtrBankOf bank (exec i s) = exec i (s.setPtrBank bank) := by
  cases i with
  | addImm _ | addcImm _ | subImm _ | subcImm _ | andImm _ | orImm _ | xorImm _ | mul | div | rol | rolc | ror | rorc
  | jmp _ | jmpf _ | br _ | brf _ | bz _ | bnz _ | beImm _ _ | bneImm _ _ | call _ | callf _ | callr _ | nop | ldf
  | stf => rfl
  | addDir _ | addcDir _ | subDir _ | subcDir _ | andDir _ | orDir _ | xorDir _ | ldDir _ | bp _ _ _ | bn _ _ _
  | beDir _ _ | bneDir _ _ | ldc => exact setPtrBankOf_onValue _ _
  | addInd _ | addcInd _ | subInd _ | subcInd _ | andInd _ | orInd _ | xorInd _ | ldInd _ | beInd _ _ _ | bneInd _ _ _ =>
    exact indRead_setPtrBank h _ fun _ => rfl
  | stDir _ | movDir _ _ => exact write_setPtrBank _ _ fun _ => rfl
  | stInd _ | movInd _ _ => exact indirect_setPtrBank h _ fun _ => write_setPtrBank _ _ fun _ => rfl
  | incDir _ | decDir _ | clr1 _ _ | set1 _ _ | not1 _ _ | dbnzDir _ _ => exact readWrite_setPtrBank _ _ fun _ _ => rfl
  | xchDir _ => exact readWrite_setPtrBank _ (fun _ => s.acc) fun _ _ => rfl
  | incInd _ | decInd _ | dbnzInd _ _ =>
    exact indirect_setPtrBank h _ fun _ => readWrite_setPtrBank _ _ fun _ _ => rfl
  | xchInd _ => exact indirect_setPtrBank h _ fun _ => readWrite_setPtrBank _ (fun _ => s.acc) fun _ _ => rfl
  | bpc d n r =>
    refine (setPtrBankOf_onValue _ _).trans (congrArg _ (funext fun v => ?_))
    split
    · exact write_setPtrBank _ _ fun _ => rfl
    · rfl
  | push d =>
    simp only [exec, execPush]
    split
    · rfl
    · exact setPtrBankOf_onValue _ _
  | pop d =>
    simp only [exec, execPop]
    split
    · rfl
    · exact (setPtrBankOf_onValue _ _).trans (congrArg _ (funext fun v => write_setPtrBank _ _ fun _ => rfl))
  | ret => exact popPc_setPtrBank
  | reti => exact returnFromInterrupt_setPtrBank

end

/-- Settles O57: running an instruction and changing the parameter commute. -/
theorem pointerBankIsInvisibleWhileBankZeroIsSelected : Obligations.PointerBankIsInvisibleWhileBankZeroIsSelected :=
  fun i _ _ h => (exec_setPtrBank i h).symm

end Sys2Proof.Machine
end

section
/-! SUPPORT. The encoder against the decoder and the opcode map (`30_encoding.md` R52 to R57): by the columns of R54, encoding
what was decoded gives back the bytes; by the formats of R52, the bytes of each form are the numbers of R55. -/

namespace Sys2Proof

open Sys2Proof.Claims

/-! ## The operand fields of assembled words -/

theorem encDir_append (op : BitVec 7) (x : BitVec 1) (b1 : Byte) : encDir op (x ++ b1) = [op ++ x, b1] := by
  rw [encDir, BitVec.extractLsb'_append_eq_left, BitVec.extractLsb'_append_eq_right]

theorem encBit_append (op : BitVec 3) (x : BitVec 1) (n : BitNum) (b1 : Byte) :
    encBit op (x ++ b1) n = [op ++ x ++ 0b1#1 ++ n, b1] := by
  rw [encBit, BitVec.extractLsb'_append_eq_left, BitVec.extractLsb'_append_eq_right]

theorem encPage_append (op : BitVec 3) (x : BitVec 1) (n : BitVec 3) (b1 : Byte) :
    encPage op (x ++ n ++ b1) = [op ++ x ++ 0b1#1 ++ n, b1] := by
  have hx : (x ++ n ++ b1).extractLsb' 11 1 = x :=
    (BitVec.extractLsb'_append_eq_of_le (by decide)).trans BitVec.extractLsb'_append_eq_left
  have hn : (x ++ n ++ b1).extractLsb' 8 3 = n :=
    (BitVec.extractLsb'_append_eq_of_le (by decide)).trans BitVec.extractLsb'_append_eq_right
  rw [encPage, hx, hn, BitVec.extractLsb'_append_eq_right]

theorem highByte_append (h l : Byte) : highByte (h ++ l) = h := BitVec.extractLsb'_append_eq_left

theorem lowByte_append (h l : Byte) : lowByte (h ++ l) = l := BitVec.extractLsb'_append_eq_right

/-! ## The encoder writes back what the decoder reads, by the columns of R54 -/

theorem encode_decode_bitByte (op : BitVec 3) (x : BitVec 1) (n : BitVec 3) (b1 b2 : Byte) :
    encode (decode (op ++ x ++ 0b1#1 ++ n) b1 b2) <+: [op ++ x ++ 0b1#1 ++ n, b1, b2] := by
  match op with
  | 0#3 | 1#3 | 2#3 | 3#3 | 4#3 | 5#3 | 6#3 | 7#3 => simp [decode_bitByte, encode, encBit_append, encPage_append]

theorem encode_decode_indirectByte (row : BitVec 4) (k : IndReg) (b1 b2 : Byte) :
    encode (decode (row ++ 0b01#2 ++ k) b1 b2) <+: [row ++ 0b01#2 ++ k, b1, b2] := by
  match row with
  | 0#4 | 1#4 | 2#4 | 3#4 | 4#4 | 5#4 | 6#4 | 7#4 | 8#4 | 9#4 | 10#4 | 11#4 | 12#4 | 13#4 | 14#4 | 15#4 =>
    simp [decode_indirectByte, encode]
  | .ofFin ⟨_ + 16, h⟩ => omega

theorem encode_decode_directByte (row : BitVec 4) (x : BitVec 1) (b1 b2 : Byte) :
    encode (decode (row ++ 0b001#3 ++ x) b1 b2) <+: [row ++ 0b001#3 ++ x, b1, b2] := by
  match row with
  | 0#4 | 1#4 | 2#4 | 3#4 | 4#4 | 5#4 | 6#4 | 7#4 | 8#4 | 9#4 | 10#4 | 11#4 | 12#4 | 13#4 | 14#4 | 15#4 =>
    simp [decode_directByte, encode, encDir_append]
  | .ofFin ⟨_ + 16, h⟩ => omega

theorem encode_decode_plainByte (row : BitVec 4) (x : BitVec 1) (b1 b2 : Byte) :
    encode (decode (row ++ 0b000#3 ++ x) b1 b2) <+: [row ++ 0b000#3 ++ x, b1, b2] := by
  match row with
  | 6#4 | 7#4 => simp [decode_directByte, encode, encDir_append]
  | 1#4 | 2#4 =>
    match x with
    | 0#1 | 1#1 => simp [decode_wordByte, encode, highByte_append, lowByte_append]
  | 0#4 | 3#4 | 4#4 | 5#4 | 8#4 | 9#4 | 10#4 | 11#4 | 12#4 | 13#4 | 14#4 | 15#4 =>
    match x with
    | 0#1 | 1#1 => exact List.prefix_iff_eq_take.2 rfl
  | .ofFin ⟨_ + 16, h⟩ => omega

/-- Every first byte stands in one of the four groups of columns of the opcode map (`30_encoding.md` R54). -/
theorem firstByte_columns (b0 : Byte) :
    (∃ (op : BitVec 3) (x : BitVec 1) (n : BitVec 3), b0 = op ++ x ++ 0b1#1 ++ n)
      ∨ (∃ (row : BitVec 4) (k : IndReg), b0 = row ++ 0b01#2 ++ k)
      ∨ (∃ (row : BitVec 4) (x : BitVec 1), b0 = row ++ 0b001#3 ++ x)
      ∨ ∃ (row : BitVec 4) (x : BitVec 1), b0 = row ++ 0b000#3 ++ x := by
  have fields : ∀ b : Byte, b = b.extractLsb' 5 3 ++ b.extractLsb' 4 1 ++ 0b1#1 ++ b.extractLsb' 0 3
      ∨ b = b.extractLsb' 4 4 ++ 0b01#2 ++ b.extractLsb' 0 2 ∨ b = b.extractLsb' 4 4 ++ 0b001#3 ++ b.extractLsb' 0 1
      ∨ b = b.extractLsb' 4 4 ++ 0b000#3 ++ b.extractLsb' 0 1 := by decide +kernel
  exact (fields b0).imp (fun h => ⟨_, _, _, h⟩)
    (Or.imp (fun h => ⟨_, _, h⟩) (Or.imp (fun h => ⟨_, _, h⟩) fun h => ⟨_, _, h⟩))

/-- The encoder invents no byte and changes none, whatever column the first byte stands in. -/
theorem encode_decode_prefix (b0 b1 b2 : Byte) : encode (decode b0 b1 b2) <+: [b0, b1, b2] := by
  obtain ⟨op, x, n, rfl⟩ | ⟨row, k, rfl⟩ | ⟨row, x, rfl⟩ | ⟨row, x, rfl⟩ := firstByte_columns b0
  · exact encode_decode_bitByte op x n b1 b2
  · exact encode_decode_indirectByte row k b1 b2
  · exact encode_decode_directByte row x b1 b2
  · exact encode_decode_plainByte row x b1 b2

theorem head?_encode_decode (b0 b1 b2 : Byte) : (encode (decode b0 b1 b2)).head? = some b0 := by
  obtain ⟨first, operands, he, -⟩ := decode_encode (decode b0 b1 b2) []
  obtain ⟨rfl, -⟩ := List.cons_prefix_cons.1 (he ▸ encode_decode_prefix b0 b1 b2)
  rw [he, List.head?_cons]

theorem length_encode_decode (b0 b1 b2 : Byte) : (encode (decode b0 b1 b2)).length = instrLength b0 := by
  have hlen := encode_length (decode b0 b1 b2)
  rw [Laws.EncodeLength.Statement, head?_encode_decode] at hlen
  exact (Option.some.inj hlen).symm

/-! ## The round trips -/

/-- Settles O1: the decoder reads back each format, and the first byte announces the length. -/
theorem decodingAnEncodedInstructionReturnsIt : Obligations.DecodingAnEncodedInstructionReturnsIt :=
  decodeBytes_encode

/-- Settles O2: a prefix of the three bytes that is as long as the first of them announces. -/
theorem encodingADecodedInstructionReturnsItsBytes : Obligations.EncodingADecodedInstructionReturnsItsBytes := by
  intro b0 b1 b2
  rw [← length_encode_decode b0 b1 b2]
  exact List.prefix_iff_eq_take.1 (encode_decode_prefix b0 b1 b2)

/-- Bytes enough for the longest instruction decode, whatever they are. -/
theorem decodeBytes_of_three (b0 b1 b2 : Byte) (rest : List Byte) :
    ∃ after, decodeBytes (b0 :: b1 :: b2 :: rest) = .ok (decode b0 b1 b2, after) := by
  have hlen := Machine.instrLength_le b0
  exact ⟨_, if_neg (by simp only [List.length_cons]; omega)⟩

/-- Settles O4: the rows by checking the 256 first bytes; that the decoder keeps the first byte is half of O2. -/
theorem everyFirstByteBelongsToExactlyOneForm : Obligations.EveryFirstByteBelongsToExactlyOneForm := by
  refine ⟨rfl, by decide +kernel, fun b0 b1 b2 rest => ?_⟩
  obtain ⟨after, hdec⟩ := decodeBytes_of_three b0 b1 b2 rest
  exact ⟨_, after, hdec, head?_encode_decode b0 b1 b2⟩

/-- Settles O3 by running the decoder on the words. -/
theorem decoderReadsWordsOfTheSpec : Obligations.DecoderReadsWordsOfTheSpec :=
  ⟨rfl, rfl, rfl, rfl, rfl, rfl, rfl, rfl, rfl⟩

/-! ## Encodings as numbers -/

theorem toNat_append_eq_add {m n : Nat} (x : BitVec m) (y : BitVec n) :
    (x ++ y).toNat = 2 ^ n * x.toNat + y.toNat := by
  rw [BitVec.toNat_append, ← Nat.shiftLeft_add_eq_or_of_lt y.isLt, Nat.shiftLeft_eq, Nat.mul_comm]

theorem append_eq_ofNat {m n : Nat} (x : BitVec m) (y : BitVec n) :
    x ++ y = BitVec.ofNat (m + n) (2 ^ n * x.toNat + y.toNat) := by
  rw [← toNat_append_eq_add, BitVec.ofNat_toNat, BitVec.setWidth_eq]

theorem toNat_highBit (d : DataAddr) : (d.extractLsb' 8 1).toNat = d.toNat / 256 := by
  have := d.isLt
  simp only [BitVec.extractLsb'_toNat, Nat.shiftRight_eq_div_pow]
  omega

theorem encDir_eq (op : BitVec 7) (d : DataAddr) :
    encDir op d = [BitVec.ofNat 8 (2 * op.toNat + d.toNat / 256), BitVec.ofNat 8 d.toNat] := by
  rw [encDir, append_eq_ofNat, toNat_highBit]
  rfl

theorem encBit_eq (op : BitVec 3) (d : DataAddr) (n : BitNum) :
    encBit op d n =
      [BitVec.ofNat 8 (32 * op.toNat + 8 + 16 * (d.toNat / 256) + n.toNat), BitVec.ofNat 8 d.toNat] := by
  have hfirst : (op ++ d.extractLsb' 8 1 ++ 0b1#1 ++ n).toNat = 32 * op.toNat + 8 + 16 * (d.toNat / 256) + n.toNat := by
    simp only [toNat_append_eq_add, toNat_highBit, BitVec.toNat_ofNat]
    omega
  rw [← hfirst, BitVec.ofNat_toNat, BitVec.setWidth_eq]
  rfl

theorem encPage_eq (op : BitVec 3) (a : PageAddr) :
    encPage op a =
      [BitVec.ofNat 8 (32 * op.toNat + 8 + 16 * (a.toNat / 2048) + a.toNat / 256 % 8), BitVec.ofNat 8 a.toNat] := by
  have hfirst : (op ++ a.extractLsb' 11 1 ++ 0b1#1 ++ a.extractLsb' 8 3).toNat =
      32 * op.toNat + 8 + 16 * (a.toNat / 2048) + a.toNat / 256 % 8 := by
    have := a.isLt
    simp only [toNat_append_eq_add, BitVec.extractLsb'_toNat, Nat.shiftRight_eq_div_pow, BitVec.toNat_ofNat]
    omega
  rw [← hfirst, BitVec.ofNat_toNat, BitVec.setWidth_eq]
  rfl

theorem highByte_eq (w : BitVec 16) : highByte w = BitVec.ofNat 8 (w.toNat / 256) :=
  congrArg (BitVec.ofNat 8) (Nat.shiftRight_eq_div_pow w.toNat 8)

theorem lowByte_eq (w : BitVec 16) : lowByte w = BitVec.ofNat 8 w.toNat := rfl

section
variable {i : Instr} {rest : List Byte} {first : Nat}

theorem bytesAre_dir {op : BitVec 7} {d : DataAddr} (h : encode i = encDir op d ++ rest)
    (hop : 2 * op.toNat = first) : bytesAre i (first + d.toNat / 256) (BitVec.ofNat 8 d.toNat :: rest) := by
  rw [bytesAre, h, encDir_eq, hop, List.cons_append, List.singleton_append]

theorem bytesAre_ind {op : BitVec 6} {k : IndReg} (h : encode i = (op ++ k) :: rest)
    (hop : 4 * op.toNat = first) : bytesAre i (first + k.toNat) rest := by
  rw [bytesAre, h, append_eq_ofNat, ← hop]
  rfl

theorem bitBytes_of_encBit {op : BitVec 3} {d : DataAddr} {n : BitNum} (h : encode i = encBit op d n ++ rest)
    (hop : 32 * op.toNat + 8 = first) : bitBytes i first d n rest := by
  rw [bitBytes, bytesAre, h, encBit_eq, hop, List.cons_append, List.singleton_append]

theorem bytesAre_page {op : BitVec 3} {a : PageAddr} (h : encode i = encPage op a)
    (hop : 32 * op.toNat + 8 = first) :
    bytesAre i (first + 16 * (a.toNat / 2048) + a.toNat / 256 % 8) [BitVec.ofNat 8 a.toNat] := by
  rw [bytesAre, h, encPage_eq, hop]

/-- A 16-bit operand stored high byte first. -/
theorem bytesAre_highLow {w : CodeAddr} (h : encode i = [BitVec.ofNat 8 first, highByte w, lowByte w]) :
    bytesAre i first [BitVec.ofNat 8 (w.toNat / 256), BitVec.ofNat 8 w.toNat] := by
  rw [bytesAre, h, highByte_eq, lowByte_eq]

/-- A 16-bit operand stored low byte first. -/
theorem bytesAre_lowHigh {w : CodeAddr} (h : encode i = [BitVec.ofNat 8 first, lowByte w, highByte w]) :
    bytesAre i first [BitVec.ofNat 8 w.toNat, BitVec.ofNat 8 (w.toNat / 256)] := by
  rw [bytesAre, h, highByte_eq, lowByte_eq]

end

theorem cellBytes_of_encode {dir : DataAddr → Instr} {ind : IndReg → Instr} {dirOp : BitVec 7} {indOp : BitVec 6}
    {dirFirst indFirst : Nat} (hdir : ∀ d, encode (dir d) = encDir dirOp d) (hind : ∀ k, encode (ind k) = [indOp ++ k])
    (hdirOp : 2 * dirOp.toNat = dirFirst) (hindOp : 4 * indOp.toNat = indFirst) :
    cellBytes dir ind dirFirst indFirst :=
  ⟨fun d => bytesAre_dir (hdir d) hdirOp, fun k => bytesAre_ind (hind k) hindOp⟩

/-- Settles O5: the numbers of the map are those of the formats' fields, one rule per format. -/
theorem encodingsFollowTheOpcodeMap : Obligations.EncodingsFollowTheOpcodeMap := by
  refine ⟨⟨fun _ => rfl, ?_⟩, ⟨fun _ => rfl, ?_⟩, ⟨fun _ => rfl, ?_⟩, ⟨fun _ => rfl, ?_⟩, ⟨fun _ => rfl, ?_⟩,
    ⟨fun _ => rfl, ?_⟩, ⟨fun _ => rfl, ?_⟩, ?_, ?_, ?_, ?_, ?_,
    rfl, rfl, rfl, rfl, rfl, rfl, rfl, rfl, rfl, rfl, rfl, rfl,
    fun _ _ => ⟨bitBytes_of_encBit rfl rfl, bitBytes_of_encBit rfl rfl, bitBytes_of_encBit rfl rfl⟩,
    fun _ _ _ => ⟨bitBytes_of_encBit rfl rfl, bitBytes_of_encBit rfl rfl, bitBytes_of_encBit rfl rfl⟩,
    fun _ => ⟨bytesAre_dir rfl rfl, bytesAre_dir rfl rfl⟩, fun _ _ => bytesAre_dir rfl rfl,
    fun _ _ => bytesAre_ind rfl rfl, fun _ _ => ⟨bytesAre_dir rfl rfl, bytesAre_dir rfl rfl, bytesAre_dir rfl rfl⟩,
    fun _ _ => bytesAre_ind rfl rfl, fun _ _ => ⟨rfl, rfl⟩,
    fun _ _ _ => ⟨bytesAre_ind rfl rfl, bytesAre_ind rfl rfl⟩, fun _ => ⟨rfl, rfl, rfl⟩,
    fun _ => ⟨bytesAre_page rfl rfl, bytesAre_page rfl rfl⟩, fun _ => ⟨bytesAre_highLow rfl, bytesAre_highLow rfl⟩,
    fun _ => ⟨bytesAre_lowHigh rfl, bytesAre_lowHigh rfl⟩⟩
  all_goals exact cellBytes_of_encode (fun _ => rfl) (fun _ => rfl) rfl rfl

end Sys2Proof
end

section
/-! SUPPORT. The assembler's checks on a target (`30_encoding.md` R65, R66, `44_jump_branch.md` R110): each accepts the operand
from which `page12` or `rel8` computes the target. -/

namespace Sys2Proof

open Sys2Proof.Machine

theorem pageOk_iff {next target : CodeAddr} : pageOk next target = true ↔ target.toNat / 4096 = next.toNat / 4096 := by
  have := target.isLt
  have := next.isLt
  rw [pageOk, beq_iff_eq, ← BitVec.toNat_inj, BitVec.extractLsb'_toNat, BitVec.extractLsb'_toNat,
    Nat.shiftRight_eq_div_pow, Nat.shiftRight_eq_div_pow]
  omega

theorem page12_of_pageOperand {next target : CodeAddr} {a : PageAddr} (h : pageOperand next target = some a) :
    page12 next a = target := by
  obtain ⟨hok, heq⟩ := Option.ite_none_right_eq_some.1 h
  obtain rfl := Option.some.inj heq
  rw [page12, ← beq_iff_eq.1 hok, BitVec.extractLsb'_append_extractLsb'_eq_extractLsb' (by rfl),
    BitVec.extractLsb'_eq_self]

theorem lowByte_signExtend (r : Byte) : (r.signExtend 16).extractLsb' 0 8 = r := by
  ext n hn
  have hwide : n < 16 := Nat.lt_trans hn (by decide)
  rw [BitVec.getElem_extractLsb', Nat.zero_add, BitVec.getLsbD_eq_getElem hwide, BitVec.getElem_signExtend, dif_pos hn]

theorem rel8_eq_iff {next target : CodeAddr} {r : Byte} : rel8 next r = target ↔ r.signExtend 16 = target - next := by
  rw [rel8, BitVec.add_comm, BitVec.eq_sub_iff_add_eq]

/-- The check of R110 accepts the one `r8` that reaches the target, if there is one. -/
theorem rel8Operand_eq_some {next target : CodeAddr} {r : Byte} :
    rel8Operand next target = some r ↔ rel8 next r = target := by
  rw [rel8Operand, Option.ite_none_right_eq_some, rel8Ok, beq_iff_eq, rel8_eq_iff, Option.some_inj]
  constructor
  · rintro ⟨hok, rfl⟩
    exact hok
  · intro hr
    rw [← hr, lowByte_signExtend]
    exact ⟨rfl, rfl⟩

/-- Settles O59: each check is read as the numbers it compares or as the operand that reaches the target. -/
theorem assembledOperandsReachTheirTargets : Obligations.AssembledOperandsReachTheirTargets := by
  refine ⟨fun _ _ _ => page12_of_pageOperand, fun next target => ?_, fun _ _ _ => rel8Operand_eq_some.1,
    fun next target => ?_⟩
  · rw [pageOperand, ite_eq_right_iff, ne_eq, ← pageOk_iff]
    simp
  · simp only [Option.eq_none_iff_forall_ne_some, ne_eq, rel8Operand_eq_some]

end Sys2Proof
end

section
/-! SUPPORT. The operand forms, said once: an instruction whose forms differ only in where the operand comes from and in their
length meets a claim over `forEachSource` or `forEachCell` when the computation they share does (`30_encoding.md` R67). -/

namespace Sys2Proof.Machine

open Sys2Proof.Claims

section
variable {s : State} {dir : DataAddr → Instr} {ind : IndReg → Instr}

/-- The three source forms of an instruction that goes from the operand `m` and the length of the form to `go m len`. -/
theorem forEachSource_of_exec {imm : Byte → Instr} {Post : Byte → Nat → Host.Outcome State Fault Refusal → Prop}
    {go : Byte → Nat → State} (himm : ∀ v, exec (imm v) s = .next (go v 2))
    (hdir : ∀ d, exec (dir d) s = onValue (s.dataRead d) fun m => .next (go m 2))
    (hind : ∀ k, exec (ind k) s = onValue (s.indValue k) fun m => .next (go m 1))
    (hpost : ∀ m len, Post m len (.next (go m len))) : forEachSource imm dir ind s Post := by
  refine ⟨fun v => ?_, fun d m hm => ?_, fun k ea m hk hm => ?_⟩
  · rw [himm]
    exact hpost v 2
  · rw [hdir, hm, onValue_next]
    exact hpost m 2
  · rw [hind, State.indValue_eq_next.2 ⟨ea, hk, hm⟩, onValue_next]
    exact hpost m 1

/-- The two cell forms of an instruction that does `go ea len` with the address of the operand and the length of the form. -/
theorem forEachCell_of_exec {dirLen indLen : Nat} {Post : DataAddr → Nat → Host.Outcome State Fault Refusal → Prop}
    {go : DataAddr → Nat → Result State} (hdir : ∀ d, exec (dir d) s = go d dirLen)
    (hind : ∀ k, exec (ind k) s = onValue (s.indAddr k) fun ea => go ea indLen)
    (hpost : ∀ ea len, Post ea len (go ea len)) : forEachCell dir ind dirLen indLen s Post := by
  refine ⟨fun d => ?_, fun k ea hk => ?_⟩
  · rw [hdir]
    exact hpost d dirLen
  · rw [hind, hk, onValue_next]
    exact hpost ea indLen

end

/-- A cell that is read, stepped by `f`, written back and branched on: the write answers wherever the read does, and leaves
`pc` alone. -/
theorem stepCellOutcome_of_readWrite {s : State} {x len : Nat} {branch : Byte → Bool} {r : Byte} {ea : DataAddr}
    {f : Byte → Byte} (hf : ∀ v, f v = BitVec.ofNat 8 (v.toNat + x)) :
    stepCellOutcome s x branch r ea len
      (onValue (s.dataRead ea) fun v => onValue (s.dataWrite ea (f v)) fun t => .next (t.branchIf (branch (f v)) len r)) := by
  intro v hv
  obtain ⟨u, hu⟩ := State.dataWrite_of_dataRead (f v) hv
  obtain ⟨hpc, -⟩ := State.dataWrite_frame hu
  rw [← hf, hv, onValue_next, hu, onValue_next, ← hpc]
  exact ⟨u, rfl, rfl⟩

end Sys2Proof.Machine
end

section
/-! SUPPORT. Arithmetic (`40_arithmetic.md` R70 to R77): the results and flags of the model's formulas as the exact sums,
differences, products and quotients that they stand for. -/

namespace Sys2Proof.Machine

open Sys2Proof.Claims

/-! ## The flags in `psw` (`10_state.md` R15, R25) -/

/-- `setArith` writes `cy`, `ac` and `ov` and no other bit. -/
theorem setArith_bits (s : State) (cy ac ov : Bool) :
    (s.setArith cy ac ov).psw.getLsbD 7 = cy ∧ (s.setArith cy ac ov).psw.getLsbD 6 = ac
      ∧ (s.setArith cy ac ov).psw.getLsbD 2 = ov ∧ sameBitsBut [7, 6, 2] s.psw (s.setArith cy ac ov).psw := by
  refine ⟨?_, ?_, ?_, sameBitsBut_trans (sameBitsBut_trans (sameBitsBut_withBit ?_ ?_ _ cy) (sameBitsBut_withBit ?_ ?_ _ ac))
    (sameBitsBut_withBit ?_ ?_ _ ov)⟩
  all_goals simp [getLsbD_withBit, Config.bitCy, Config.bitAc, Config.bitOv, -BitVec.getLsbD_eq_getElem]

/-- Setting `cy` and `ov`, as `mul` and `div` do, writes no other bit. -/
theorem setCy_setOv_bits (s : State) (cy ov : Bool) :
    ((s.setCy cy).setOv ov).psw.getLsbD 7 = cy ∧ ((s.setCy cy).setOv ov).psw.getLsbD 2 = ov
      ∧ sameBitsBut [7, 2] s.psw ((s.setCy cy).setOv ov).psw := by
  refine ⟨?_, ?_, sameBitsBut_trans (sameBitsBut_withBit ?_ ?_ _ cy) (sameBitsBut_withBit ?_ ?_ _ ov)⟩
  all_goals simp [getLsbD_withBit, Config.bitCy, Config.bitOv, -BitVec.getLsbD_eq_getElem]

/-! ## Addition and subtraction -/

/-- The signed value of a byte: the one number in -128..127 that is its unsigned value mod 256 (`00_scope.md` R3). -/
theorem toInt_spec (v : Byte) : v.toInt = v.toNat - 256 * (v.msb.toNat : Int) ∧ -128 ≤ v.toInt ∧ v.toInt ≤ 127 := by
  refine ⟨?_, BitVec.le_toInt v, Int.le_of_lt_add_one (BitVec.toInt_lt (x := v))⟩
  rw [BitVec.toInt_eq_msb_cond]
  cases v.msb <;> simp

section
variable (a m : Byte) (k : Bool)

theorem addResult_toNat : (addResult a m k).toNat = (a.toNat + m.toNat + k.toNat) % 256 := rfl

theorem subResult_eq_ofNat : subResult a m k = BitVec.ofNat 8 (a.toNat + 512 - m.toNat - k.toNat) := by
  have hm := m.isLt
  have hk := k.toNat_le
  apply BitVec.eq_of_toNat_eq
  rw [subResult, subExact, BitVec.toNat_ofInt, BitVec.toNat_ofNat]
  omega

theorem subResult_toNat : (subResult a m k).toNat = (a.toNat + 512 - m.toNat - k.toNat) % 256 := by
  rw [subResult_eq_ofNat, BitVec.toNat_ofNat]

/-- Two terms of one sign and a result of the other: the exact signed sum does not fit a byte. The result is
that sum mod 256, brought into the range of a signed byte. -/
theorem addOv_eq : addOv a m k =
    decide (a.toInt + m.toInt + k.toNat < -128 ∨ 127 < a.toInt + m.toInt + k.toNat) := by
  have hk := k.toNat_le
  have hres := addResult_toNat a m k
  obtain ⟨ha, hamin, hamax⟩ := toInt_spec a
  obtain ⟨hm, hmmin, hmmax⟩ := toInt_spec m
  obtain ⟨hr, hrmin, hrmax⟩ := toInt_spec (addResult a m k)
  rw [addOv, Bool.eq_iff_iff]
  simp only [Bool.and_eq_true, beq_iff_eq, bne_iff_ne, ne_eq, decide_eq_decide, decide_eq_true_eq, BitVec.msb_eq_toInt]
  omega

/-- Terms of different signs and a result without the sign of `a`: the exact signed difference does not fit a
byte. -/
theorem subOv_eq : subOv a m k =
    decide (a.toInt - m.toInt - k.toNat < -128 ∨ 127 < a.toInt - m.toInt - k.toNat) := by
  have hk := k.toNat_le
  have hres := subResult_toNat a m k
  obtain ⟨ha, hamin, hamax⟩ := toInt_spec a
  obtain ⟨hm, hmmin, hmmax⟩ := toInt_spec m
  obtain ⟨hr, hrmin, hrmax⟩ := toInt_spec (subResult a m k)
  rw [subOv, Bool.eq_iff_iff]
  simp only [Bool.and_eq_true, bne_iff_ne, ne_eq, decide_eq_decide, decide_eq_true_eq, BitVec.msb_eq_toInt]
  omega

end

/-- The outcome of `add` and `addc` (D13). -/
theorem addStep_outcome (s : State) (m : Byte) (k : Bool) (len : Nat) :
    addOutcome s k.toNat m len (.next (s.addStep m k len)) := by
  obtain ⟨hcy, hac, hov, hrest⟩ := setArith_bits s (addCy s.acc m k) (addAc s.acc m k) (addOv s.acc m k)
  exact ⟨_, rfl, hcy, hac, hov.trans (addOv_eq ..), hrest⟩

/-- The outcome of `sub` and `subc` (D14). -/
theorem subStep_outcome (s : State) (m : Byte) (k : Bool) (len : Nat) :
    subOutcome s k.toNat m len (.next (s.subStep m k len)) := by
  obtain ⟨hcy, hac, hov, hrest⟩ := setArith_bits s (subCy s.acc m k) (subAc s.acc m k) (subOv s.acc m k)
  refine ⟨_, ?_, hcy.trans ?_, hac, hov.trans (subOv_eq ..), hrest⟩
  · rw [← subResult_eq_ofNat]
    rfl
  · exact decide_eq_decide.2 (by rw [subExact]; omega)

/-- Settles O11: the six forms differ in the operand, the length and the carry-in alone. -/
theorem addAndAddcSumIntoAccAndSetTheFlags : Obligations.AddAndAddcSumIntoAccAndSetTheFlags := fun s =>
  ⟨forEachSource_of_exec (fun _ => rfl) (fun _ => rfl) (fun _ => rfl) fun m => addStep_outcome s m false,
    forEachSource_of_exec (fun _ => rfl) (fun _ => rfl) (fun _ => rfl) fun m => addStep_outcome s m s.cy⟩

/-- Settles O12: the six forms differ in the operand, the length and the borrow-in alone. -/
theorem subAndSubcSubtractFromAccAndSetTheFlags : Obligations.SubAndSubcSubtractFromAccAndSetTheFlags := fun s =>
  ⟨forEachSource_of_exec (fun _ => rfl) (fun _ => rfl) (fun _ => rfl) fun m => subStep_outcome s m false,
    forEachSource_of_exec (fun _ => rfl) (fun _ => rfl) (fun _ => rfl) fun m => subStep_outcome s m s.cy⟩

/-! ## inc, dec -/

theorem plusOne_eq_ofNat (v : Byte) : plusOne v = BitVec.ofNat 8 (v.toNat + 1) := rfl

theorem minusOne_eq_ofNat (v : Byte) : minusOne v = BitVec.ofNat 8 (v.toNat + 255) := by
  apply BitVec.eq_of_toNat_eq
  rw [minusOne, BitVec.toNat_sub, BitVec.toNat_ofNat, BitVec.toNat_ofNat, Nat.add_comm]

/-- Changing a cell in place is stepping it and never branching. -/
theorem modifyCell_outcome {s : State} {x : Nat} {f : Byte → Byte} (hf : ∀ v, f v = BitVec.ofNat 8 (v.toNat + x))
    (ea : DataAddr) (len : Nat) : stepCellOutcome s x (fun _ => false) 0#8 ea len (s.modifyCell ea f len) :=
  stepCellOutcome_of_readWrite hf

/-- Settles O13: both forms change the cell that the operand denotes in place, by 1 or by 255 mod 256. -/
theorem incAndDecStepTheirCell : Obligations.IncAndDecStepTheirCell := fun _ =>
  ⟨forEachCell_of_exec (fun _ => rfl) (fun _ => rfl) (modifyCell_outcome plusOne_eq_ofNat),
    forEachCell_of_exec (fun _ => rfl) (fun _ => rfl) (modifyCell_outcome minusOne_eq_ofNat)⟩

/-! ## mul, div -/

/-- A number below 2^16 is laid out over two bytes. -/
theorem twoBytes_toNat {n : Nat} (h : n < 65536) :
    256 * (BitVec.ofNat 8 (n / 256)).toNat + (BitVec.ofNat 8 n).toNat = n := by
  simp only [BitVec.toNat_ofNat]
  omega

/-- A number below 2^24 is laid out over three bytes. -/
theorem threeBytes_toNat {n : Nat} (h : n < 16777216) :
    65536 * (BitVec.ofNat 8 (n / 65536)).toNat + 256 * (BitVec.ofNat 8 (n / 256)).toNat + (BitVec.ofNat 8 n).toNat = n := by
  simp only [BitVec.toNat_ofNat]
  omega

theorem accC_lt (s : State) : s.accC < 65536 := by
  have := s.acc.isLt
  have := s.c.isLt
  rw [State.accC]
  omega

/-- The product of a 16-bit and an 8-bit number fits 24 bits. -/
theorem accC_mul_b_lt (s : State) : s.accC * s.b.toNat < 16777216 :=
  Nat.mul_lt_mul'' (accC_lt s) s.b.isLt

/-- The results of `div` for a divisor other than zero (D15; `90_conflicts.md` C8). -/
theorem divResults_of_ne_zero {s : State} (hb : s.b ≠ 0#8) :
    s.accC = (256 * s.divResults.acc.toNat + s.divResults.c.toNat) * s.b.toNat + s.divResults.b.toNat
      ∧ s.divResults.b.toNat < s.b.toNat ∧ s.divResults.ov = decide (s.divResults.b = 0#8) := by
  have hpos : 0 < s.b.toNat := Nat.pos_of_ne_zero fun h => hb (BitVec.eq_of_toNat_eq h)
  have hrem : s.accC % s.b.toNat < s.b.toNat := Nat.mod_lt _ hpos
  have hremByte : (BitVec.ofNat 8 (s.accC % s.b.toNat)).toNat = s.accC % s.b.toNat :=
    Nat.mod_eq_of_lt (hrem.trans s.b.isLt)
  have hquot : s.accC / s.b.toNat < 65536 := (Nat.div_le_self ..).trans_lt (accC_lt s)
  rw [State.divResults, if_neg hb]
  refine ⟨?_, ?_, decide_eq_decide.2 ?_⟩
  · rw [twoBytes_toNat hquot, hremByte, Nat.div_add_mod']
  · rwa [hremByte]
  · rw [← BitVec.toNat_inj, hremByte]
    rfl

/-- Settles O14: the three bytes lay out the product, which fits 24 bits. -/
theorem mulLeavesTheProductInBAccC : Obligations.MulLeavesTheProductInBAccC := by
  intro s p
  obtain ⟨hcy, hov, hrest⟩ := setCy_setOv_bits s false (decide (65535 < p))
  exact ⟨_, rfl, rfl, threeBytes_toNat (accC_mul_b_lt s), hcy, hov, hrest⟩

/-- Settles O15: the quotient and the remainder are those of `divResults`; `cy` and the frame do not look at the divisor. -/
theorem divLeavesQuotientAndRemainder : Obligations.DivLeavesQuotientAndRemainder := by
  intro s
  obtain ⟨hcy, hov, hrest⟩ := setCy_setOv_bits s false s.divResults.ov
  refine ⟨_, rfl, rfl, fun hb => ?_, hcy, hrest⟩
  obtain ⟨hlaw, hlt, hzero⟩ := divResults_of_ne_zero hb
  exact ⟨hlaw, hlt, hov.trans hzero⟩

end Sys2Proof.Machine
end

section
/-! SUPPORT. Logic and rotates (`41_logic_rotate.md` R80 to R86): the bitwise results, and the two one-bit shifts that the
rotates are made of, bit by bit and as inverses of each other. -/

namespace Sys2Proof.Machine

open Sys2Proof.Claims

/-! ## and, or, xor -/

/-- The outcome of `and`, `or` and `xor`, from what their operation does to one bit. -/
theorem logicStep_outcome {f : Byte → Byte → Byte} {g : Bool → Bool → Bool}
    (hf : ∀ x y n, n < 8 → (f x y).getLsbD n = g (x.getLsbD n) (y.getLsbD n)) (s : State) (m : Byte) (len : Nat) :
    bitwiseOutcome g s m len (.next (s.logicStep f m len)) :=
  ⟨_, rfl, hf s.acc m⟩

theorem getLsbD_bitAnd (x y : Byte) (n : Nat) : (bitAnd x y).getLsbD n = (x.getLsbD n && y.getLsbD n) :=
  BitVec.getLsbD_and

theorem getLsbD_bitOr (x y : Byte) (n : Nat) : (bitOr x y).getLsbD n = (x.getLsbD n || y.getLsbD n) :=
  BitVec.getLsbD_or

theorem getLsbD_bitXor (x y : Byte) (n : Nat) : (bitXor x y).getLsbD n = (x.getLsbD n != y.getLsbD n) :=
  BitVec.getLsbD_xor

/-- Settles O16: the three forms differ in the operand and the length alone. -/
theorem andPutsTheBitwiseAndIntoAcc : Obligations.AndPutsTheBitwiseAndIntoAcc := fun s =>
  forEachSource_of_exec (fun _ => rfl) (fun _ => rfl) (fun _ => rfl)
    (logicStep_outcome (fun x y n _ => getLsbD_bitAnd x y n) s)

/-- Settles O17: the three forms of each differ in the operand and the length alone; the encodings are those of the opcode
map. -/
theorem orAndXorPutTheBitwiseResultIntoAcc : Obligations.OrAndXorPutTheBitwiseResultIntoAcc := by
  obtain ⟨-, -, -, -, -, horBytes, hxorBytes, -⟩ := encodingsFollowTheOpcodeMap
  exact ⟨fun s =>
    ⟨forEachSource_of_exec (fun _ => rfl) (fun _ => rfl) (fun _ => rfl)
      (logicStep_outcome (fun x y n _ => getLsbD_bitOr x y n) s),
    forEachSource_of_exec (fun _ => rfl) (fun _ => rfl) (fun _ => rfl)
      (logicStep_outcome (fun x y n _ => getLsbD_bitXor x y n) s)⟩,
    horBytes, hxorBytes⟩

/-! ## The one-bit shifts -/

section
variable (a : Byte) (x : Bool)

theorem getLsbD_shiftLeftIn_zero : (shiftLeftIn a x).getLsbD 0 = x :=
  BitVec.getLsbD_append.trans (by simp)

theorem getLsbD_shiftLeftIn_succ {n : Nat} (hn : n < 7) : (shiftLeftIn a x).getLsbD (n + 1) = a.getLsbD n :=
  BitVec.getLsbD_append.trans (by simp [hn])

theorem getLsbD_shiftRightIn {n : Nat} (hn : n < 7) : (shiftRightIn x a).getLsbD n = a.getLsbD (n + 1) :=
  BitVec.getLsbD_append.trans (by simp [hn, Nat.add_comm])

theorem msb_shiftRightIn : (shiftRightIn x a).msb = x :=
  BitVec.msb_append.trans (by simp)

/-- Shifting right undoes a shift to the left when the bit that fell out comes in again. -/
theorem shiftRightIn_shiftLeftIn : shiftRightIn a.msb (shiftLeftIn a x) = a := by
  apply BitVec.eq_of_getLsbD_eq
  intro n hn
  obtain hlow | rfl : n < 7 ∨ n = 7 := by omega
  · rw [getLsbD_shiftRightIn _ _ hlow, getLsbD_shiftLeftIn_succ _ _ hlow]
  · exact msb_shiftRightIn _ _

/-- Shifting left undoes a shift to the right when the bit that fell out comes in again. -/
theorem shiftLeftIn_shiftRightIn : shiftLeftIn (shiftRightIn x a) (a.getLsbD 0) = a := by
  apply BitVec.eq_of_getLsbD_eq
  intro n hn
  cases n with
  | zero => exact getLsbD_shiftLeftIn_zero _ _
  | succ n =>
    have hlow : n < 7 := Nat.lt_of_succ_lt_succ hn
    rw [getLsbD_shiftLeftIn_succ _ _ hlow, getLsbD_shiftRightIn _ _ hlow]

end

/-! ## rol, rolc, ror, rorc -/

/-- What a rotate can change: `acc`, `psw`, and `pc` to the next instruction. -/
def State.rotated (s : State) (a p : Byte) : State := { s with acc := a, psw := p, pc := s.pc + 1#16 }

section
variable (s : State)

theorem State.rotated_acc (a p : Byte) : (s.rotated a p).acc = a := rfl

theorem State.rotated_psw (a p : Byte) : (s.rotated a p).psw = p := rfl

theorem State.rotated_cy (a p : Byte) : (s.rotated a p).cy = p.getLsbD Config.bitCy := rfl

theorem exec_rol : exec .rol s = .next (s.rotated (shiftLeftIn s.acc s.acc.msb) s.psw) := rfl

theorem exec_rolc :
    exec .rolc s = .next (s.rotated (shiftLeftIn s.acc s.cy) (withBit s.psw Config.bitCy s.acc.msb)) := rfl

theorem exec_ror : exec .ror s = .next (s.rotated (shiftRightIn (s.acc.getLsbD 0) s.acc) s.psw) := rfl

theorem exec_rorc :
    exec .rorc s = .next (s.rotated (shiftRightIn s.cy s.acc) (withBit s.psw Config.bitCy (s.acc.getLsbD 0))) := rfl

theorem getLsbD_withCy (p : Byte) (x : Bool) : (withBit p Config.bitCy x).getLsbD Config.bitCy = x := by
  rw [getLsbD_withBit _ _ _ _ (by decide), if_pos rfl]

theorem sameBitsBut_withCy (p : Byte) (x : Bool) : sameBitsBut [Config.bitCy] p (withBit p Config.bitCy x) :=
  sameBitsBut_withBit (List.mem_singleton_self _) (by decide) p x

/-- Setting `cy` back to what it was undoes setting it. -/
theorem withCy_withCy (x : Bool) : withBit (withBit s.psw Config.bitCy x) Config.bitCy s.cy = s.psw := by
  apply BitVec.eq_of_getLsbD_eq
  intro n _
  by_cases hn : n = Config.bitCy
  · rw [hn, getLsbD_withCy]
    rfl
  · rw [getLsbD_withBit _ _ _ _ (by decide), if_neg hn, getLsbD_withBit _ _ _ _ (by decide), if_neg hn]

/-- Two rotates that leave `acc` and `psw` as they were change `pc` alone. -/
theorem State.rotated_rotated (a p : Byte) : (s.rotated a p).rotated s.acc s.psw = { s with pc := s.pc + 2#16 } := by
  rw [rotated, rotated, BitVec.add_assoc]
  rfl

end

/-- Settles O18: each rotate is a one-bit shift, and its equation names the bit that comes in and the flag. -/
theorem rolRolcRorcRotateByOneBit : Obligations.RolRolcRorcRotateByOneBit :=
  ⟨fun s => ⟨⟨_, exec_rol s, fun _ => getLsbD_shiftLeftIn_succ _ _, getLsbD_shiftLeftIn_zero _ _⟩,
    ⟨_, _, exec_rolc s, fun _ => getLsbD_shiftLeftIn_succ _ _, getLsbD_shiftLeftIn_zero _ _, getLsbD_withCy _ _,
      sameBitsBut_withCy _ _⟩,
    ⟨_, _, exec_rorc s, fun _ => getLsbD_shiftRightIn _ _, msb_shiftRightIn _ _, getLsbD_withCy _ _,
      sameBitsBut_withCy _ _⟩⟩, rfl, rfl, rfl⟩

/-- Settles O19: the second rotate of a pair shifts back, and takes in the bit that the first one shifted out: it stands at
the other end of `acc`, or in `cy`. -/
theorem rorRotatesRightAndRotatesUndoEachOther : Obligations.RorRotatesRightAndRotatesUndoEachOther := by
  refine fun s => ⟨⟨_, exec_ror s, fun _ => getLsbD_shiftRightIn _ _, msb_shiftRightIn _ _⟩, fun i j hij => ?_⟩
  simp only [List.mem_cons, Prod.mk.injEq, List.not_mem_nil, or_false] at hij
  obtain ⟨rfl, rfl⟩ | ⟨rfl, rfl⟩ | ⟨rfl, rfl⟩ | ⟨rfl, rfl⟩ := hij
  · refine ⟨_, exec_rol s, ?_⟩
    rw [exec_ror, State.rotated_acc, State.rotated_psw, getLsbD_shiftLeftIn_zero, shiftRightIn_shiftLeftIn,
      State.rotated_rotated]
  · refine ⟨_, exec_ror s, ?_⟩
    rw [exec_rol, State.rotated_acc, State.rotated_psw, msb_shiftRightIn, shiftLeftIn_shiftRightIn,
      State.rotated_rotated]
  · refine ⟨_, exec_rolc s, ?_⟩
    rw [exec_rorc, State.rotated_acc, State.rotated_psw, State.rotated_cy, getLsbD_withCy, getLsbD_shiftLeftIn_zero,
      shiftRightIn_shiftLeftIn, withCy_withCy, State.rotated_rotated]
  · refine ⟨_, exec_rorc s, ?_⟩
    rw [exec_rolc, State.rotated_acc, State.rotated_psw, State.rotated_cy, getLsbD_withCy, msb_shiftRightIn,
      shiftLeftIn_shiftRightIn, withCy_withCy, State.rotated_rotated]

end Sys2Proof.Machine
end

section
/-! SUPPORT. Bit instructions (`42_bit.md` R90 to R92): the three results are one cell with one bit set to a value, and changing
a cell in place answers wherever the cell reads. -/

namespace Sys2Proof.Machine

/-- Inverting a bit is setting it to the complement of what it was. -/
theorem flipBit_eq_withBit (n : BitNum) (v : Byte) : flipBit n v = withBit v n.toNat (!v.getLsbD n.toNat) := by
  apply BitVec.eq_of_getLsbD_eq
  intro m _
  have hmask : (1#8 <<< n.toNat).getLsbD m = decide (n.toNat = m) :=
    (BitVec.getLsbD_twoPow n.toNat m).trans (by rw [decide_eq_true n.isLt, Bool.true_and])
  rw [flipBit, BitVec.getLsbD_xor, hmask, getLsbD_withBit _ _ _ _ n.isLt]
  by_cases hm : m = n.toNat
  · rw [if_pos hm, hm, decide_eq_true rfl, Bool.xor_true]
  · rw [if_neg hm, decide_eq_false (Ne.symm hm), Bool.xor_false]

/-- Where a cell reads, changing it in place writes it and moves `pc` on by the length of the instruction. -/
theorem State.modifyCell_of_dataRead {s : State} {ea : DataAddr} {v : Byte} (hv : s.dataRead ea = .next v)
    (f : Byte → Byte) (len : Nat) :
    ∃ u, s.dataWrite ea (f v) = .next u ∧ s.modifyCell ea f len = .next { u with pc := s.following len } := by
  obtain ⟨u, hu⟩ := State.dataWrite_of_dataRead (f v) hv
  obtain ⟨hpc, -⟩ := State.dataWrite_frame hu
  refine ⟨u, hu, State.modifyCell_eq_next.2 ⟨v, u, hv, hu, ?_⟩⟩
  rw [State.following, ← hpc]
  rfl

/-- A cell whose bit `n` is set to `x` in place: the byte written is fixed bit by bit. -/
theorem State.modifyCell_withBit {s : State} {d : DataAddr} {v : Byte} (hv : s.dataRead d = .next v) (f : Byte → Byte)
    {n : BitNum} {x : Bool} (hf : f v = withBit v n.toNat x) :
    ∃ w u, s.dataWrite d w = .next u ∧ s.modifyCell d f 2 = .next { u with pc := s.pc + 2#16 }
      ∧ w.getLsbD n.toNat = x ∧ sameBitsBut [n.toNat] v w := by
  obtain ⟨u, hwrite, hmodify⟩ := State.modifyCell_of_dataRead hv f 2
  refine ⟨f v, u, hwrite, hmodify, ?_⟩
  rw [hf, getLsbD_withBit _ _ _ _ n.isLt, if_pos rfl]
  exact ⟨rfl, sameBitsBut_withBit (List.mem_singleton_self _) n.isLt v x⟩

/-- Settles O20: the three instructions differ in the value that the bit is set to alone; each form is encoded in format BIT. -/
theorem bitInstructionsChangeOneBitOfTheirCell : Obligations.BitInstructionsChangeOneBitOfTheirCell :=
  ⟨fun _ _ n v hv => ⟨State.modifyCell_withBit hv (clearBit n) rfl, State.modifyCell_withBit hv (raiseBit n) rfl,
      State.modifyCell_withBit hv (flipBit n) (flipBit_eq_withBit n v)⟩,
    fun _ _ => ⟨bitBytes_of_encBit rfl rfl, bitBytes_of_encBit rfl rfl, bitBytes_of_encBit rfl rfl⟩⟩

end Sys2Proof.Machine
end

section
/-! SUPPORT. Data transfer (`43_data_transfer.md` R100 to R108): the stores and the exchange on a cell that takes the write, the
table address of `ldc`, and `push` and `pop` as the byte they move. -/

namespace Sys2Proof.Machine

open Sys2Proof.Claims

/-! ## ld, st, mov, xch -/

/-- A writable cell takes every write: the device policy stops only writes above the named registers. -/
theorem State.dataWrite_of_writable {s : State} {a : DataAddr} (v : Byte) (h : writable s a) :
    ∃ u, s.dataWrite a v = .next u := by
  cases hwrite : s.dataWrite a v with
  | next u => exact ⟨u, rfl⟩
  | fault f => exact absurd hwrite State.dataWrite_ne_fault
  | refused r =>
    obtain ⟨hdevice, hrefuse, -⟩ := State.dataWrite_eq_refused.1 hwrite
    rcases h with hlow | horacle
    · have := cellAt_eq_device.1 hdevice
      omega
    · exact absurd (horacle.symm.trans hrefuse) (by decide)

/-- `st` and `mov`: the write leaves `pc` alone, so that `next` may be counted from the old one. -/
theorem storeStep_outcome {s : State} (v : Byte) (ea : DataAddr) (len : Nat) (h : writable s ea) :
    ∃ u, s.dataWrite ea v = .next u ∧ s.storeStep ea v len = .next { u with pc := s.pc + BitVec.ofNat 16 len } := by
  obtain ⟨u, hu⟩ := State.dataWrite_of_writable v h
  obtain ⟨hpc, -⟩ := State.dataWrite_frame hu
  rw [State.storeStep, hu, onValue_next, ← hpc]
  exact ⟨u, rfl, rfl⟩

/-- `xch`: the cell takes the write because it answered the read. -/
theorem exchangeStep_outcome {s : State} (ea : DataAddr) (len : Nat) (v : Byte) (hv : s.dataRead ea = .next v) :
    ∃ u, s.dataWrite ea s.acc = .next u
      ∧ s.exchangeStep ea len = .next { u with acc := v, pc := s.pc + BitVec.ofNat 16 len } := by
  obtain ⟨u, hu⟩ := State.dataWrite_of_dataRead s.acc hv
  obtain ⟨hpc, -⟩ := State.dataWrite_frame hu
  rw [State.exchangeStep, hv, onValue_next, hu, onValue_next, ← hpc]
  exact ⟨u, rfl, rfl⟩

/-- Settles O21: the value of either operand is that of the cell it denotes. -/
theorem ldLoadsTheCellIntoAcc : Obligations.LdLoadsTheCellIntoAcc := by
  refine ⟨fun s => ⟨fun d v hv => ?_, fun k ea hk v hv => ?_⟩,
    cellBytes_of_encode (fun _ => rfl) (fun _ => rfl) rfl rfl⟩
  · rw [exec, execLdDir, hv, onValue_next]
    rfl
  · rw [exec, execLdInd, State.indValue_eq_next.2 ⟨ea, hk, hv⟩, onValue_next]
    rfl

/-- Settles O22: `st` and `mov` differ in the byte and the lengths alone. -/
theorem stAndMovWriteTheCell : Obligations.StAndMovWriteTheCell :=
  ⟨fun s => ⟨forEachCell_of_exec (fun _ => rfl) (fun _ => rfl) (storeStep_outcome s.acc),
      fun v => forEachCell_of_exec (fun _ => rfl) (fun _ => rfl) (storeStep_outcome v)⟩,
    cellBytes_of_encode (fun _ => rfl) (fun _ => rfl) rfl rfl, fun _ _ => bytesAre_dir rfl rfl,
    fun _ _ => bytesAre_ind rfl rfl⟩

/-- Settles O23: both forms exchange `acc` with the cell that the operand denotes. -/
theorem xchExchangesAccWithTheCell : Obligations.XchExchangesAccWithTheCell :=
  ⟨fun _ => forEachCell_of_exec (fun _ => rfl) (fun _ => rfl) exchangeStep_outcome,
    cellBytes_of_encode (fun _ => rfl) (fun _ => rfl) rfl rfl⟩

/-! ## ldc -/

/-- The table address as a number (`10_state.md` R13, decisions D9, D17). -/
theorem State.tableAddr_toNat (s : State) :
    s.tableAddr.toNat = (256 * s.trh.toNat + s.trl.toNat + s.acc.toNat) % 65536 := by
  have hacc : (s.acc.setWidth 16).toNat = s.acc.toNat := BitVec.toNat_setWidth_of_le (by decide)
  rw [State.tableAddr, BitVec.toNat_add, hacc, State.tr, toNat_append_eq_add]
  rfl

/-- `ldc` is the read of the code cell at the table address. -/
theorem exec_ldc (s : State) :
    exec .ldc s = onValue (s.codeRead s.tableAddr) fun v => .next { s with acc := v, pc := s.pc + 1#16 } := rfl

/-- Settles O24: the code read at the table address decides. -/
theorem ldcReadsTheCodeCellAtTrPlusAcc : Obligations.LdcReadsTheCodeCellAtTrPlusAcc := by
  intro s
  simp only [← State.tableAddr_toNat, BitVec.ofNat_toNat, BitVec.setWidth_eq]
  refine ⟨fun v hv => ?_, fun hmissing => ?_⟩
  · rw [exec_ldc, State.codeRead_eq_next.2 hv, onValue_next]
  · rw [exec_ldc, State.codeRead_eq_refused.2 ⟨hmissing, rfl⟩, onValue_refused]

/-! ## push, pop -/

theorem exec_push {s : State} {d : DataAddr} {v : Byte} (hd : d ≠ Config.addrSp)
    (hv : s.dataRead d = .next v) :
    exec (.push d) s = .next ((s.push v).advance 2) := by
  rw [exec, execPush, if_neg hd, hv, onValue_next]

/-- The RAM after a push: the one cell above the old `sp`, mod 256, of the stack's bank (decision D7). -/
theorem State.read_push_ram (s : State) (v : Byte) (key : Nat) :
    Memory.read (s.push v).ram key = if key = (s.sp.toNat + 1) % 256 then some v else Memory.read s.ram key := by
  rw [State.push_ram, Memory.read_write, ramKey_stackBank, BitVec.toNat_add]
  rfl

/-- After `push` has moved `pc` on, its byte stands where `sp` points. -/
theorem State.stackRead_push_advance (s : State) (v : Byte) (len : Nat) :
    ((s.push v).advance len).stackRead ((s.push v).advance len).sp = .next v :=
  State.stackRead_eq_next.2 (Memory.read_write_same _ _ _)

/-- `pop` writes the byte at `sp` to its cell; that write moves neither `sp` nor `pc`, as the cell is not `sp`. -/
theorem exec_pop {s u : State} {d : DataAddr} {v : Byte} (hd : d ≠ Config.addrSp) (hv : s.stackRead s.sp = .next v)
    (hu : s.dataWrite d v = .next u) :
    exec (.pop d) s = .next { u with sp := s.sp - 1#8, pc := s.pc + 2#16 } := by
  obtain ⟨hpc, -⟩ := State.dataWrite_frame hu
  obtain ⟨-, -, -, -, -, -, hsp⟩ := State.dataWrite_registers hu
  rw [exec, execPop, if_neg hd, hv, onValue_next, hu, onValue_next, ← hpc, ← hsp hd]
  rfl

/-- Settles O25: the byte is read before anything is written. -/
theorem pushAndPopMoveOneByteAndSp : Obligations.PushAndPopMoveOneByteAndSp := by
  refine fun s d hd => ⟨fun v hv => ⟨_, exec_push hd hv, rfl, State.read_push_ram s v⟩, fun v hw hv => ?_⟩
  obtain ⟨u, hu⟩ := State.dataWrite_of_writable v hw
  rw [← ramKey_stackBank] at hv
  rw [← minusOne_eq_ofNat]
  exact ⟨u, hu, exec_pop hd (State.stackRead_eq_next.2 hv) hu⟩

/-- Settles O26: `pop` reads the byte that `push` left at the top of the stack, and the two moves of `sp` cancel. -/
theorem pushThenPopCopiesTheCell : Obligations.PushThenPopCopiesTheCell := by
  intro s x y v hx hy hv hw
  obtain ⟨w, hwrite⟩ := State.dataWrite_of_writable (s := (s.push v).advance 2) v hw
  have hpop := exec_pop hy (State.stackRead_push_advance s v 2) hwrite
  rw [State.advance_sp, State.push_sp, BitVec.add_sub_cancel, State.advance_pc, State.following, State.push_pc,
    BitVec.add_assoc] at hpop
  exact ⟨_, w, exec_push hx hv, hwrite, hpop⟩

/-! ## Forms without meaning -/

theorem exec_push_sp (s : State) : exec (.push Config.addrSp) s = .refused .stackPointerOperand := by
  rw [exec, execPush, if_pos rfl]

theorem exec_pop_sp (s : State) : exec (.pop Config.addrSp) s = .refused .stackPointerOperand := by
  rw [exec, execPop, if_pos rfl]

/-- Settles O27: `ldf` and `stf` have no other meaning, `push` and `pop` first compare their operand with
the address of `sp`. -/
theorem formsWithoutMeaningAreRefused : Obligations.FormsWithoutMeaningAreRefused := fun s =>
  ⟨rfl, rfl, exec_push_sp s, exec_pop_sp s⟩

end Sys2Proof.Machine
end

section
/-! SUPPORT. Control-flow targets as numbers (`44_jump_branch.md` R110 to R112), and what a call does to the stack
(`45_call_return.md` R136). -/

namespace Sys2Proof.Machine

open Sys2Proof.Claims

/-! ## rel8, rel16, page12 -/

/-- An offset widened with its sign is the signed offset mod 65536 (decisions D11, D12). -/
theorem rel8_toNat (next : CodeAddr) (r : Byte) : ((rel8 next r).toNat : Int) = (next.toNat + r.toInt) % 65536 := by
  have hwide : ((r.signExtend 16).toNat : Int) = r.toInt % 65536 := by
    rw [BitVec.signExtend, BitVec.toNat_ofInt, Int.toNat_of_nonneg (Int.emod_nonneg _ (by decide))]
    rfl
  rw [rel8, BitVec.toNat_add]
  omega

theorem rel16_toNat (next r : CodeAddr) : (rel16 next r).toNat = (next.toNat + 65535 + r.toNat) % 65536 := by
  rw [rel16, BitVec.toNat_add, BitVec.toNat_sub, BitVec.toNat_ofNat]
  omega

/-- For a three-byte instruction at `pc`, `next - 1` is the address of its last byte. -/
theorem rel16_toNat_of_three (pc r : CodeAddr) : (rel16 (pc + 3#16) r).toNat = (pc.toNat + 2 + r.toNat) % 65536 := by
  rw [rel16_toNat, BitVec.toNat_add, BitVec.toNat_ofNat]
  omega

theorem rel16_following_eq_ofNat (s : State) (len : Nat) (r : CodeAddr) :
    rel16 (s.following len) r = BitVec.ofNat 16 (s.pc.toNat + len + 65535 + r.toNat) := by
  apply BitVec.eq_of_toNat_eq
  rw [rel16_toNat, State.following, BitVec.toNat_add, BitVec.toNat_ofNat, BitVec.toNat_ofNat]
  omega

theorem rel16Operand_toNat (pc target : CodeAddr) :
    (rel16Operand pc target).toNat = (target.toNat + 65536 * 2 - pc.toNat - 2) % 65536 := by
  have hpc := pc.isLt
  rw [rel16Operand, BitVec.toNat_sub, BitVec.toNat_sub, BitVec.toNat_ofNat]
  omega

/-- The operand an assembler encodes for a target of a three-byte instruction reaches it. -/
theorem rel16_rel16Operand (pc target : CodeAddr) : rel16 (pc + 3#16) (rel16Operand pc target) = target := by
  have hpc := pc.isLt
  have htarget := target.isLt
  apply BitVec.eq_of_toNat_eq
  rw [rel16_toNat_of_three, rel16Operand_toNat]
  omega

/-- The address in the 4 KiB page of `next` whose place in that page is `a`. -/
theorem page12_eq_ofNat (next : CodeAddr) (a : PageAddr) :
    page12 next a = BitVec.ofNat 16 (4096 * (next.toNat / 4096) + a.toNat) := by
  have hpage : (next.extractLsb' 12 4).toNat = next.toNat / 4096 := by
    have := next.isLt
    rw [BitVec.extractLsb'_toNat, Nat.shiftRight_eq_div_pow]
    omega
  rw [page12, append_eq_ofNat, hpage]
  rfl

/-! ## Calls -/

/-- A pushed address stands low byte first in the two cells above the old `sp`. -/
theorem pushedWord_pushAddr (s : State) (w : CodeAddr) : pushedWord s (s.pushAddr w) w := by
  intro key
  rw [State.pushAddr_ram, Memory.read_write, Memory.read_write, BitVec.add_assoc, highByte_eq, lowByte_eq]
  rfl

/-- What a call does, whatever its target: it pushes the address of the following instruction and goes there. -/
theorem callStep_outcome (s : State) (len : Nat) (target : CodeAddr) :
    callOutcome s len target (.next (s.callStep len target)) := by
  refine ⟨_, rfl, ?_, pushedWord_pushAddr s _⟩
  have hsp : s.sp + 2#8 = s.sp + 1#8 + 1#8 := (BitVec.add_assoc s.sp 1#8 1#8).symm
  rw [hsp]
  rfl

end Sys2Proof.Machine
end

section
/-! SUPPORT. Jumps and branches (`44_jump_branch.md` R110 to R124): a branch moves `pc` alone, to a target that its condition
chooses; what the condition reads, and what is written beside it, is said for each family. -/

namespace Sys2Proof.Machine

open Sys2Proof.Claims

/-! ## Jumps -/

/-- The page of a two-byte instruction's target is that of the address after it (R112). -/
theorem page12_following_two (s : State) (a : PageAddr) :
    page12 (s.following 2) a = BitVec.ofNat 16 (4096 * ((s.pc.toNat + 2) % 65536 / 4096) + a.toNat) := by
  rw [page12_eq_ofNat, State.following, BitVec.toNat_add]
  rfl

/-- Settles O28: `jmp` and `call` compute one target, and `call` is the call of it. -/
theorem jmpAndCallStayInThePageOfTheFollowingInstruction :
    Obligations.JmpAndCallStayInThePageOfTheFollowingInstruction := by
  intro s a
  rw [← page12_following_two]
  exact ⟨rfl, callStep_outcome s 2 _⟩

/-- Settles O29: `brf` is `rel16` of the address of the following instruction. -/
theorem jmpfAndBrfReachTheirTargets : Obligations.JmpfAndBrfReachTheirTargets := by
  refine ⟨fun _ _ => rfl, fun s r => ?_, fun _ => bytesAre_highLow rfl, fun _ => bytesAre_lowHigh rfl⟩
  rw [← rel16_following_eq_ofNat]
  rfl

/-- Settles O30: the sum of `rel8` as a number, and `br` as its one use without a condition. -/
theorem brAndRelEightAddASignedOffset : Obligations.BrAndRelEightAddASignedOffset :=
  ⟨rel8_toNat, fun _ _ => rfl⟩

/-- Settles O58: `next - 1` is `pc + 2`, and the operand is the distance from there. -/
theorem relSixteenIsRelativeToTheLastByte : Obligations.RelSixteenIsRelativeToTheLastByte :=
  ⟨rel16_toNat, rel16_toNat_of_three, fun pc target => ⟨rel16Operand_toNat pc target, rel16_rel16Operand pc target⟩⟩

/-! ## Branches on a condition -/

/-- A branch changes `pc` alone, and its condition may be said in other words. -/
theorem State.branchIf_eq {s : State} {taken : Bool} {p : Prop} [Decidable p] (h : taken = true ↔ p) (len : Nat)
    (r : Byte) :
    s.branchIf taken len r =
      { s with pc := if p then rel8 (s.pc + BitVec.ofNat 16 len) r else s.pc + BitVec.ofNat 16 len } :=
  congrArg s.jumpTo (if_congr h rfl rfl)

/-- Settles O31: the condition is a fact about `acc`, and no flag stands between. -/
theorem bzAndBnzBranchOnAcc : Obligations.BzAndBnzBranchOnAcc := by
  refine ⟨fun s r => ?_, fun _ => ⟨rfl, rfl⟩⟩
  have hacc : s.acc = 0#8 ↔ s.acc.toNat = 0 := BitVec.toNat_eq
  constructor
  · rw [exec, execBz, State.branchIf_eq (decide_eq_true_iff.trans hacc)]
  · rw [exec, execBnz, State.branchIf_eq (decide_eq_true_iff.trans (not_congr hacc)), ite_not]

/-! ## bp, bn, bpc -/

/-- Bit `n` is the bit of weight `2 ^ n` (decision D10). -/
theorem getLsbD_eq_true_iff (v : Byte) (n : Nat) : v.getLsbD n = true ↔ v.toNat / 2 ^ n % 2 = 1 := by
  rw [BitVec.getLsbD, Nat.testBit_eq_decide_div_mod_eq, decide_eq_true_iff]

theorem not_getLsbD_eq_true_iff (v : Byte) (n : Nat) : (!v.getLsbD n) = true ↔ v.toNat / 2 ^ n % 2 = 0 := by
  rw [Bool.not_eq_true', ← Bool.not_eq_true, getLsbD_eq_true_iff]
  exact Nat.mod_two_ne_one

/-- Settles O32: `bp` and `bn` read the cell and branch on its bit or on the complement. -/
theorem bpAndBnBranchOnABitOfTheCell : Obligations.BpAndBnBranchOnABitOfTheCell := by
  refine ⟨fun s d n r v hv => ⟨?_, ?_⟩, fun _ _ _ => ⟨bitBytes_of_encBit rfl rfl, bitBytes_of_encBit rfl rfl⟩⟩
  · rw [exec, execBp, hv, onValue_next, State.branchIf_eq (getLsbD_eq_true_iff v n.toNat)]
  · rw [exec, execBn, hv, onValue_next, State.branchIf_eq (not_getLsbD_eq_true_iff v n.toNat)]

section
variable {s : State} {d : DataAddr} {n : BitNum} {v : Byte}

/-- `bpc` of a set bit writes the cell back without it, and branches: the write leaves `pc` alone. -/
theorem exec_bpc_of_set (hv : s.dataRead d = .next v) (hbit : v.getLsbD n.toNat = true) (r : Byte) :
    ∃ u, s.dataWrite d (clearBit n v) = .next u
      ∧ exec (.bpc d n r) s = .next { u with pc := rel8 (s.pc + 3#16) r } := by
  obtain ⟨u, hu⟩ := State.dataWrite_of_dataRead (clearBit n v) hv
  obtain ⟨hpc, -⟩ := State.dataWrite_frame hu
  refine ⟨u, hu, ?_⟩
  rw [exec, execBpc, hv, onValue_next, if_pos hbit, hu, onValue_next, ← hpc]
  rfl

/-- `bpc` of a clear bit goes on to the next instruction and writes nothing (decision D32). -/
theorem exec_bpc_of_clear (hv : s.dataRead d = .next v) (hbit : v.getLsbD n.toNat = false) (r : Byte) :
    exec (.bpc d n r) s = .next { s with pc := s.pc + 3#16 } := by
  rw [exec, execBpc, hv, onValue_next, if_neg (Bool.eq_false_iff.1 hbit)]
  rfl

end

/-- Settles O33: the byte written where the bit is set is the byte read with that bit clear. -/
theorem bpcClearsTheBitItBranchesOn : Obligations.BpcClearsTheBitItBranchesOn := by
  refine fun s d n r v hv => ⟨fun hbit => ?_, fun hbit => exec_bpc_of_clear hv hbit r⟩
  obtain ⟨u, hwrite, hexec⟩ := exec_bpc_of_set hv hbit r
  refine ⟨clearBit n v, u, hwrite, hexec, ?_, sameBitsBut_withBit (List.mem_singleton_self _) n.isLt v false⟩
  rw [clearBit, getLsbD_withBit _ _ _ _ n.isLt, if_pos rfl]

/-! ## dbnz -/

/-- Counting a cell down is stepping it by 255 mod 256 and branching on the value written (decision D19). -/
theorem countDownStep_outcome (s : State) (r : Byte) (ea : DataAddr) (len : Nat) :
    stepCellOutcome s 255 (fun w => w != 0#8) r ea len (s.countDownStep ea len r) := by
  have hbranch : ∀ w : Byte, decide (w ≠ 0#8) = (w != 0#8) := fun w => decide_not
  simp only [State.countDownStep, hbranch]
  exact stepCellOutcome_of_readWrite minusOne_eq_ofNat

/-- Settles O34: both forms count down the cell that the operand denotes. -/
theorem dbnzDecrementsAndBranchesOnNonZero : Obligations.DbnzDecrementsAndBranchesOnNonZero := fun s r =>
  forEachCell_of_exec (fun _ => rfl) (fun _ => rfl) (countDownStep_outcome s r)

/-! ## be, bne -/

/-- A compare changes `cy` and `pc` alone. -/
theorem compareStep_outcome (s : State) (x y : Byte) (wanted : Bool) (r : Byte) :
    compareOutcome s x y wanted r (.next (s.compareStep x y wanted r)) := by
  refine ⟨withBit s.psw Config.bitCy (compareCy x y), ?_, getLsbD_withCy _ _, sameBitsBut_withCy _ _⟩
  rw [State.compareStep, State.branchIf_eq beq_iff_eq]
  rfl

/-- The three operand forms of a compare: the left side is `acc`, or the cell that `@Ri` denotes. -/
theorem compareOutcome_of_exec {s : State} {v r : Byte} {d : DataAddr} {k : IndReg} {wanted : Bool}
    {imm dir ind : Instr} (himm : exec imm s = .next (s.compareStep s.acc v wanted r))
    (hdir : exec dir s = onValue (s.dataRead d) fun y => .next (s.compareStep s.acc y wanted r))
    (hind : exec ind s = onValue (s.indValue k) fun x => .next (s.compareStep x v wanted r)) :
    compareOutcome s s.acc v wanted r (exec imm s)
      ∧ (∀ y, s.dataRead d = .next y → compareOutcome s s.acc y wanted r (exec dir s))
      ∧ (∀ ea x, s.indAddr k = .next ea → s.dataRead ea = .next x → compareOutcome s x v wanted r (exec ind s)) := by
  refine ⟨?_, fun y hy => ?_, fun ea x hk hx => ?_⟩
  · rw [himm]
    exact compareStep_outcome ..
  · rw [hdir, hy, onValue_next]
    exact compareStep_outcome ..
  · rw [hind, State.indValue_eq_next.2 ⟨ea, hk, hx⟩, onValue_next]
    exact compareStep_outcome ..

/-- Settles O35: `be` and `bne` differ in the equality they want alone. -/
theorem beAndBneCompareAndBranch : Obligations.BeAndBneCompareAndBranch := by
  intro s v r d k wanted imm dir ind hforms
  simp only [List.mem_cons, Prod.mk.injEq, List.not_mem_nil, or_false] at hforms
  obtain ⟨rfl, rfl, rfl, rfl⟩ | ⟨rfl, rfl, rfl, rfl⟩ := hforms
  · exact compareOutcome_of_exec rfl rfl rfl
  · exact compareOutcome_of_exec rfl rfl rfl

end Sys2Proof.Machine
end

section
/-! SUPPORT. Calls and returns (`45_call_return.md` R131 to R136): a return reads back the two stack cells that a call has
written. -/

namespace Sys2Proof.Machine

open Sys2Proof.Claims

/-! ## callf, callr, nop -/

/-- Settles O36: `callf` calls its operand, `callr` the `rel16` target of it. -/
theorem callfAndCallrPushTheReturnAddress : Obligations.CallfAndCallrPushTheReturnAddress := by
  refine ⟨fun s => callStep_outcome s 3, fun s r => ?_, fun _ => bytesAre_highLow rfl, fun _ => bytesAre_lowHigh rfl⟩
  rw [← rel16_following_eq_ofNat]
  exact callStep_outcome s 3 _

/-- Settles O38: `nop` is the move to the following instruction and nothing else. -/
theorem nopOnlyAdvancesPc : Obligations.NopOnlyAdvancesPc := ⟨fun _ => rfl, rfl⟩

/-! ## ret, reti -/

/-- `pc` is popped from the cell at `sp` (its high byte) and the cell below (its low byte); `sp` and `pc` alone change. -/
theorem State.popPc_of_stackRead {s : State} {high low : Byte} (hhigh : s.stackRead s.sp = .next high)
    (hlow : s.stackRead (s.sp - 1#8) = .next low) :
    s.popPc = .next { s with sp := s.sp - 2#8, pc := high ++ low } := by
  have hsp : s.sp - 2#8 = s.sp - 1#8 - 1#8 := (BitVec.sub_sub s.sp 1#8 1#8).symm
  rw [hsp]
  exact State.popPc_eq_next.2 ⟨high, low, State.stackRead_eq_next.1 hhigh, State.stackRead_eq_next.1 hlow, rfl⟩

/-- Settles O37: `reti` is the pop of `ret`, with `int_hold` cleared after it. -/
theorem retAndRetiPopPc : Obligations.RetAndRetiPopPc := by
  refine ⟨fun s high low hhigh hlow => ?_, rfl, rfl⟩
  have hpc : BitVec.ofNat 16 (256 * high.toNat + low.toNat) = high ++ low := (append_eq_ofNat high low).symm
  have hpop := State.popPc_of_stackRead hhigh hlow
  rw [hpc]
  exact ⟨hpop, State.returnFromInterrupt_eq_next.2 ⟨_, hpop, rfl⟩⟩

/-! ## A call and its return -/

/-- The two cells of a pushed address, as the stack reads them. -/
theorem stackRead_of_pushedWord {s t : State} {w : CodeAddr} (h : pushedWord s t w) :
    t.stackRead (s.sp + 1#8) = .next (lowByte w) ∧ t.stackRead (s.sp + 2#8) = .next (highByte w) := by
  have hcells : s.sp + 1#8 ≠ s.sp + 2#8 := by bv_omega
  constructor
  · rw [State.stackRead_eq_next, h, if_neg fun hk => hcells (ramKey_inj.1 hk).2, if_pos rfl, lowByte_eq]
  · rw [State.stackRead_eq_next, h, if_pos rfl, highByte_eq]

/-- With `sp` two above where an address was pushed, popping `pc` finds that address and moves `sp` back. -/
theorem State.popPc_of_pushedWord {s t : State} {w : CodeAddr} (hsp : t.sp = s.sp + 2#8) (h : pushedWord s t w) :
    t.popPc = .next { t with sp := s.sp, pc := w } := by
  obtain ⟨hlow, hhigh⟩ := stackRead_of_pushedWord h
  have hbelow : t.sp - 1#8 = s.sp + 1#8 := by bv_omega
  have hback : t.sp - 2#8 = s.sp := by bv_omega
  rw [← hsp] at hhigh
  rw [← hbelow] at hlow
  rw [← hback, ← highByte_append_lowByte w]
  exact State.popPc_of_stackRead hhigh hlow

theorem lowByte_following (s : State) (len : Nat) :
    lowByte (s.pc + BitVec.ofNat 16 len) = BitVec.ofNat 8 (s.pc.toNat + len) := by
  apply BitVec.eq_of_toNat_eq
  simp only [lowByte_eq, BitVec.toNat_add, BitVec.toNat_ofNat]
  omega

theorem highByte_following (s : State) (len : Nat) :
    highByte (s.pc + BitVec.ofNat 16 len) = BitVec.ofNat 8 ((s.pc.toNat + len) % 65536 / 256) := by
  rw [highByte_eq, BitVec.toNat_add, BitVec.toNat_ofNat, Nat.add_mod_mod]

/-- The three call instructions differ in their target and length alone. -/
theorem callOutcome_of_callForm {s : State} {i : Instr} {len : Nat} {a : PageAddr} {w : CodeAddr}
    (h : (i, len) ∈ [(Instr.call a, 2), (.callf w, 3), (.callr w, 3)]) :
    ∃ target, callOutcome s len target (exec i s) := by
  simp only [List.mem_cons, Prod.mk.injEq, List.not_mem_nil, or_false] at h
  obtain ⟨rfl, rfl⟩ | ⟨rfl, rfl⟩ | ⟨rfl, rfl⟩ := h
  · exact ⟨_, callStep_outcome s 2 _⟩
  · exact ⟨_, callStep_outcome s 3 _⟩
  · exact ⟨_, callStep_outcome s 3 _⟩

/-- Settles O39: the return reads the two cells that the call has pushed, and the call has changed nothing but them, `sp`
and `pc`. -/
theorem returnUndoesCall : Obligations.ReturnUndoesCall := by
  intro s i len a w hform
  obtain ⟨target, t, hexec, ht, hpushed⟩ := callOutcome_of_callForm (s := s) hform
  have hsp : t.sp = s.sp + 2#8 := congrArg State.sp ht
  obtain ⟨hlow, hhigh⟩ := stackRead_of_pushedWord hpushed
  rw [lowByte_following] at hlow
  rw [highByte_following] at hhigh
  have hframe : { t with sp := s.sp, pc := s.pc + BitVec.ofNat 16 len } =
      { s with pc := s.pc + BitVec.ofNat 16 len, ram := t.ram } :=
    congrArg (fun u : State => { u with sp := s.sp, pc := s.pc + BitVec.ofNat 16 len }) ht
  exact ⟨t, hexec, hsp, hpushed, hlow, hhigh, (State.popPc_of_pushedWord hsp hpushed).trans (congrArg _ hframe)⟩

end Sys2Proof.Machine
end

section
/-! SUPPORT. Interrupts (`60_exceptions.md` R142 to R147): an entry pushes `pc` as a call pushes its return address, so `reti`
pops it as `ret` does; a request that has to wait leaves the step to the instruction at `pc`. -/

namespace Sys2Proof.Machine

open Sys2Proof.Claims

/-! ## Entry -/

theorem boundary_of_free_request {s : State} {vector : CodeAddr} {moves : List AgentMove}
    (h : s.agent = .request vector :: moves) (hfree : s.intHold = false) :
    s.boundary = .deliver ({ s with agent := moves }.takeInterrupt vector) := by
  simp [State.boundary, h, hfree]

/-- A step at a boundary that delivers is the interrupt's entry alone. -/
theorem step_of_boundary_deliver {s t : State} (hb : s.boundary = .deliver t) : step s = .next t := by
  simp only [step, hb]

/-- What an entry changes: `sp`, `pc`, `int_hold`, and RAM by a pushed address (`60_exceptions.md` R145). -/
theorem State.takeInterrupt_eq (s : State) (vector : CodeAddr) :
    s.takeInterrupt vector =
      { s with sp := s.sp + 2#8, pc := vector, intHold := true, ram := (s.pushAddr s.pc).ram } := by
  have hsp : s.sp + 2#8 = s.sp + 1#8 + 1#8 := (BitVec.add_assoc s.sp 1#8 1#8).symm
  rw [hsp]
  rfl

/-- Settles O40: the agent's move is used up, and the rest is the entry. -/
theorem interruptEntryPushesPcAndSetsTheHold : Obligations.InterruptEntryPushesPcAndSetsTheHold := by
  intro s vector moves hagent hfree
  have hstep := step_of_boundary_deliver (boundary_of_free_request hagent hfree)
  exact ⟨_, hstep, State.takeInterrupt_eq _ _, pushedWord_pushAddr { s with agent := moves } s.pc⟩

/-! ## A request that waits -/

/-- Settles O41: the boundary lets the instruction run from the unchanged state, and no instruction changes the agent or the draw
counter. -/
theorem heldInterruptWaits : Obligations.HeldInterruptWaits := by
  intro s vector moves hagent hheld
  have hstep := step_of_boundary_run (boundary_of_held_request hagent hheld)
  rw [hstep]
  refine ⟨fun i u hfetch hexec => ?_, fun t h => ?_⟩
  · rw [hfetch, onValue_next, hexec, onValue_next, State.tick, (exec_surroundings hexec).draws]
  · obtain ⟨i, -, h⟩ := onValue_eq_next.1 h
    obtain ⟨u, hexec, h⟩ := onValue_eq_next.1 h
    cases h
    rw [State.tick_agent, (exec_surroundings hexec).agent]

/-! ## Return -/

/-- Settles O42: `reti` pops the address that the entry has pushed and clears the hold that it has set. -/
theorem retiUndoesInterruptEntry : Obligations.RetiUndoesInterruptEntry := by
  intro s vector moves hagent hfree
  obtain ⟨t, hstep, ht, hpushed⟩ := interruptEntryPushesPcAndSetsTheHold s vector moves hagent hfree
  have hsp : t.sp = s.sp + 2#8 := congrArg State.sp ht
  have hpop : t.popPc = .next { t with sp := s.sp, pc := s.pc } := State.popPc_of_pushedWord hsp hpushed
  have hframe : { s with agent := moves, ram := t.ram } = { t with sp := s.sp, pc := s.pc, intHold := false } := by
    rw [← hfree]
    exact (congrArg (fun u : State => { u with sp := s.sp, pc := s.pc, intHold := s.intHold }) ht).symm
  exact ⟨t, hstep, hpushed, State.returnFromInterrupt_eq_next.2 ⟨_, hpop, hframe⟩⟩

end Sys2Proof.Machine
end

section
/-! SUPPORT. Why an instruction faults, said once for all 70 forms: by a read of its own, and that of a RAM cell without a value
(`60_exceptions.md` R140, `70_reset_and_hazards.md` R166). -/

namespace Sys2Proof.Machine

open Sys2Proof.Claims

/-! ## The cell behind a fault -/

/-- The fault is that of a RAM cell that nothing has written (log 1). -/
def UnsetCell (s : State) (f : Fault) : Prop :=
  ∃ (bank : Nat) (cell : Byte), f = .unsetRam bank cell ∧ Memory.read s.ram (256 * bank + cell.toNat) = none

section
variable {s : State} {f : Fault}

theorem unsetCell_of_ramRead {bank : Nat} {cell : Byte} (h : s.ramRead bank cell = .fault f) : UnsetCell s f := by
  obtain ⟨hread, rfl⟩ := State.ramRead_eq_fault.1 h
  exact ⟨bank, cell, rfl, hread⟩

theorem unsetCell_of_dataRead {a : DataAddr} (h : s.dataRead a = .fault f) : UnsetCell s f := by
  obtain ⟨cell, -, hread, rfl⟩ := State.dataRead_eq_fault.1 h
  exact ⟨s.ramBank, cell, rfl, hread⟩

/-- `@Ri` faults only at its pointer cell. -/
theorem unsetCell_of_indAddr {k : IndReg} (h : s.indAddr k = .fault f) : UnsetCell s f := by
  rcases onValue_eq_fault.1 h with h | ⟨pointer, -, h⟩
  · exact unsetCell_of_ramRead h
  · cases h

theorem unsetCell_of_faultingRead {i : Instr} (h : faultingRead i s f) : UnsetCell s f := by
  rcases h with ⟨d, -, -, -, -, h⟩ | ⟨k, -, h⟩ | ⟨k, ea, -, -, -, -, h⟩ | ⟨-, h⟩ | ⟨-, -, h⟩
  · exact unsetCell_of_dataRead h
  · exact unsetCell_of_indAddr h
  · exact unsetCell_of_dataRead h
  · exact unsetCell_of_ramRead h
  · exact unsetCell_of_ramRead h

/-! ## The read behind a fault -/

theorem dataWrite_stop_ne_fault {a : DataAddr} {v : Byte} : stopOf (s.dataWrite a v) ≠ .fault f := fun h =>
  State.dataWrite_ne_fault (stopOf_eq_fault.1 h)

theorem indirect_store_eq_fault {k : IndReg} {v : Byte}
    (h : (onValue (s.indAddr k) fun ea => stopOf (s.dataWrite ea v)) = .fault f) : s.indAddr k = .fault f := by
  rcases onValue_eq_fault.1 h with h | ⟨ea, -, h⟩
  · exact h
  · exact absurd h dataWrite_stop_ne_fault

theorem State.pop_eq_fault : s.pop = .fault f ↔ s.stackRead s.sp = .fault f := by
  simp [State.pop, onValue_eq_fault]

/-- Popping `pc` faults at the cell at `sp` or, where that one has a value, at the cell below it. -/
theorem State.popPc_fault (h : s.popPc = .fault f) :
    s.stackRead s.sp = .fault f ∨ (∃ v, s.stackRead s.sp = .next v) ∧ s.stackRead (s.sp - 1#8) = .fault f := by
  rcases onValue_eq_fault.1 h with h | ⟨⟨high, u⟩, hhigh, h⟩
  · exact .inl (State.pop_eq_fault.1 h)
  · obtain ⟨hread, rfl⟩ := State.pop_eq_next.1 hhigh
    rcases onValue_eq_fault.1 h with h | ⟨low, -, h⟩
    · exact .inr ⟨⟨high, State.stackRead_eq_next.2 hread⟩, State.pop_eq_fault.1 h⟩
    · cases h

theorem faultingRead_of_popPc {i : Instr} (hi : i = .ret ∨ i = .reti) (h : s.popPc = .fault f) : faultingRead i s f := by
  rcases State.popPc_fault h with h | ⟨hhigh, h⟩
  · exact .inr (.inr (.inr (.inl ⟨hi.imp_right .inl, h⟩)))
  · exact .inr (.inr (.inr (.inr ⟨hi, hhigh, h⟩)))

/-- An instruction that reads the operand it names faults by that read or by that of its pointer cell. -/
theorem faultingRead_of_operandStop {i : Instr}
    (hdirect : ∀ d, i ≠ .stDir d ∧ (∀ v, i ≠ .movDir v d) ∧ i ≠ .pop d)
    (hindirect : ∀ k, i ≠ .stInd k ∧ ∀ v, i ≠ .movInd v k) (h : operandStop i s = .fault f) : faultingRead i s f := by
  unfold operandStop at h
  split at h
  · next d hd =>
    obtain ⟨hst, hmov, hpop⟩ := hdirect d
    exact .inl ⟨d, hd, hst, hmov, hpop, stopOf_eq_fault.1 h⟩
  · split at h
    · next k hk =>
      obtain ⟨hst, hmov⟩ := hindirect k
      rcases onValue_eq_fault.1 (stopOf_eq_fault.1 h) with h | ⟨ea, hea, h⟩
      · exact .inr (.inl ⟨k, hk, h⟩)
      · exact .inr (.inr (.inl ⟨k, ea, hk, hea, hst, hmov, h⟩))
    · cases h

/-- Every read by which an instruction faults. -/
theorem exec_fault_reason {i : Instr} (h : exec i s = .fault f) : faultingRead i s f := by
  replace h := exec_eq_fault.1 h
  cases i with
  | ldf | stf => cases h
  | ldc => exact absurd (stopOf_eq_fault.1 h) State.codeRead_ne_fault
  | ret => exact faultingRead_of_popPc (.inl rfl) (stopOf_eq_fault.1 h)
  | reti => exact faultingRead_of_popPc (.inr rfl) (stopOf_eq_fault.1 h)
  | push d =>
    simp only [mayStop] at h
    split at h
    · cases h
    · exact .inl ⟨d, rfl, nofun, nofun, nofun, stopOf_eq_fault.1 h⟩
  | pop d =>
    simp only [mayStop] at h
    split at h
    · cases h
    · next hd =>
      rcases onValue_eq_fault.1 h with h | ⟨v, -, h⟩
      · exact .inr (.inr (.inr (.inl ⟨.inr (.inr ⟨d, hd, rfl⟩), h⟩)))
      · exact absurd h dataWrite_stop_ne_fault
  | stDir _ | movDir _ _ => exact absurd h dataWrite_stop_ne_fault
  | stInd k | movInd _ k => exact .inr (.inl ⟨k, rfl, indirect_store_eq_fault h⟩)
  | _ => exact faultingRead_of_operandStop (fun _ => ⟨nofun, nofun, nofun⟩) (fun _ => ⟨nofun, nofun⟩) h

end

/-- Settles O52: a fault is that of the instruction's own read, and each reason for a refusal is put as the number it turns on. -/
theorem execStopsOnlyForTheNamedReasons : Obligations.ExecStopsOnlyForTheNamedReasons := by
  refine ⟨fun i s f h => ⟨exec_fault_reason h, unsetCell_of_faultingRead (exec_fault_reason h)⟩, fun i s r h => ?_⟩
  rcases exec_refused_reason h with ⟨a, hop, hdevice, hpolicy, hr⟩ | hload | hstore | hsp | ⟨hi, hread⟩
  · exact .inl ⟨a, hr, hop, cellAt_eq_device.1 hdevice, hpolicy⟩
  · exact .inr (.inl hload)
  · exact .inr (.inr (.inl hstore))
  · exact .inr (.inr (.inr (.inl hsp)))
  · obtain ⟨hmissing, hr⟩ := State.codeRead_eq_refused.1 hread
    exact .inr (.inr (.inr (.inr ⟨s.tableAddr, hr, hi, s.tableAddr_toNat, hmissing⟩)))

end Sys2Proof.Machine
end

section
/-! SUPPORT. Reads of RAM cells that nothing has written, and the end of a run (`70_reset_and_hazards.md` R165, R166): each read
that an instruction makes of its own stops it with the fault of the cell, and a run stops at `halt_pc` before the step. -/

namespace Sys2Proof.Machine

section
variable {i : Instr} {s : State} {f : Fault}

/-! ## Direct and `@Ri` operands without a value (R166) -/

/-- Reading `sp` as data never faults. -/
theorem ne_addrSp_of_dataRead_fault {a : DataAddr} (h : s.dataRead a = .fault f) : a ≠ Config.addrSp := by
  rintro rfl
  cases h

theorem mayStop_of_direct_fault {d : DataAddr} (hi : i.directAddr = some d) (h : s.dataRead d = .fault f)
    (hst : i ≠ .stDir d) (hmov : ∀ v, i ≠ .movDir v d) (hpop : i ≠ .pop d) : mayStop i s = .fault f := by
  have hread : stopOf (s.dataRead d) = .fault f := stopOf_eq_fault.2 h
  cases i with
  | push =>
    cases hi
    exact (if_neg (ne_addrSp_of_dataRead_fault h)).trans hread
  | stDir =>
    cases hi
    exact absurd rfl hst
  | movDir v =>
    cases hi
    exact absurd rfl (hmov v)
  | pop =>
    cases hi
    exact absurd rfl hpop
  | ldf | stf | ldc | ret | reti | stInd | movInd => cases hi
  | _ => exact (operandStop_of_direct hi).trans hread

/-- Every `@Ri` form resolves its pointer first, `st` and `mov` among them (`20_memory.md` R32). -/
theorem mayStop_of_pointer_fault {k : IndReg} (hi : i.indReg = some k) (h : s.indAddr k = .fault f) :
    mayStop i s = .fault f := by
  have hvalue : stopOf (s.indValue k) = .fault f := by rw [stopOf_eq_fault, State.indValue, h, onValue_fault]
  cases i with
  | stInd | movInd =>
    cases hi
    rw [mayStop, h, onValue_fault]
  | ldf | stf | ldc | ret | reti | push | pop | stDir | movDir => cases hi
  | _ => exact (operandStop_of_indirect hi).trans hvalue

theorem mayStop_of_indirect_fault {k : IndReg} {ea : DataAddr} (hi : i.indReg = some k) (hk : s.indAddr k = .next ea)
    (h : s.dataRead ea = .fault f) (hst : i ≠ .stInd k) (hmov : ∀ v, i ≠ .movInd v k) : mayStop i s = .fault f := by
  have hvalue : stopOf (s.indValue k) = .fault f := by rw [stopOf_eq_fault, State.indValue, hk, onValue_next, h]
  cases i with
  | stInd =>
    cases hi
    exact absurd rfl hst
  | movInd v =>
    cases hi
    exact absurd rfl (hmov v)
  | ldf | stf | ldc | ret | reti | push | pop | stDir | movDir => cases hi
  | _ => exact (operandStop_of_indirect hi).trans hvalue

/-! ## Stack cells without a value (R166, `43_data_transfer.md` R105, `45_call_return.md` R133, R134) -/

theorem State.popPc_of_high_fault (h : s.stackRead s.sp = .fault f) : s.popPc = .fault f := by
  rw [State.popPc, State.pop_eq_fault.2 h, onValue_fault]

theorem State.popPc_of_low_fault {v : Byte} (hhigh : s.stackRead s.sp = .next v)
    (hlow : s.stackRead (s.sp - 1#8) = .fault f) : s.popPc = .fault f := by
  have hpop : s.pop = .next (v, { s with sp := s.sp - 1#8 }) :=
    State.pop_eq_next.2 ⟨State.stackRead_eq_next.1 hhigh, rfl⟩
  have hpopBelow : State.pop { s with sp := s.sp - 1#8 } = .fault f := State.pop_eq_fault.2 hlow
  rw [State.popPc, hpop, onValue_next, hpopBelow, onValue_fault]

theorem exec_ret_reti_of_popPc_fault (h : s.popPc = .fault f) : exec .ret s = .fault f ∧ exec .reti s = .fault f :=
  ⟨exec_eq_fault.2 (stopOf_eq_fault.2 h), exec_eq_fault.2 (stopOf_eq_fault.2 h)⟩

/-- `pop` reads the stack before it looks at its operand. -/
theorem exec_pop_of_stack_fault {d : DataAddr} (hd : d ≠ Config.addrSp) (h : s.stackRead s.sp = .fault f) :
    exec (.pop d) s = .fault f := by
  rw [exec_eq_fault, mayStop, if_neg hd, h, onValue_fault]

end

/-- Settles O55: each clause names a read that comes before everything else that can stop its instruction. -/
theorem unwrittenOperandsFault : Obligations.UnwrittenOperandsFault := by
  refine ⟨fun i s d f hi h hst hmov hpop => ?direct, fun i s k f hi h => ?pointer,
    fun i s k ea f hi hk h hst hmov => ?indirect, fun s f h => ?high, fun s v f hhigh hlow => ?low⟩
  case direct => exact exec_eq_fault.2 (mayStop_of_direct_fault hi h hst hmov hpop)
  case pointer => exact exec_eq_fault.2 (mayStop_of_pointer_fault hi h)
  case indirect => exact exec_eq_fault.2 (mayStop_of_indirect_fault hi hk h hst hmov)
  case high =>
    obtain ⟨hret, hreti⟩ := exec_ret_reti_of_popPc_fault (State.popPc_of_high_fault h)
    exact ⟨hret, hreti, fun _ hd => exec_pop_of_stack_fault hd h⟩
  case low => exact exec_ret_reti_of_popPc_fault (State.popPc_of_low_fault hhigh hlow)

/-! ## The end of a run (R165) -/

section
variable {haltPc : CodeAddr} {s : State}

theorem runToHalt_of_pc_eq (fuel : Nat) (h : s.pc = haltPc) : runToHalt haltPc fuel s = .over s := by
  rw [runToHalt.eq_def]
  exact if_pos h

theorem runToHalt_succ_of_step {t : State} (fuel : Nat) (h : s.pc ≠ haltPc) (hstep : step s = .next t) :
    runToHalt haltPc (fuel + 1) s = runToHalt haltPc fuel t := by
  rw [runToHalt.eq_def]
  exact (if_neg h).trans (by rw [hstep])

end

/-- Settles O60: `halt_pc` is looked at before the fuel and before the step. -/
theorem runEndsAtHaltPc : Obligations.RunEndsAtHaltPc :=
  ⟨fun _ fuel _ => runToHalt_of_pc_eq fuel, fun _ fuel _ _ => runToHalt_succ_of_step fuel⟩

end Sys2Proof.Machine
end
